-- ==== Sys2Proof/Word.lean ====
section
/-! DEFINITION. The machine word and its plainest arithmetic (R2, R3). -/

namespace Sys2Proof

/-- A word is 32 bits (R2). -/
abbrev Word := BitVec 32

/-- A byte of memory. -/
abbrev Byte := BitVec 8

/-- A byte address or an address register: 40 bits (R2, R127). -/
abbrev Addr := BitVec 40

end Sys2Proof
end

