-- ==== Sys2Proof/Syntax.lean ====
section
/-! DEFINITION. The commands of the block: one constructor of `Instr` per row of spec/opcode_table.json, and the types of their
operands.  Instance numbers are `Fin`s, so that "no other numbers are valid" (R10) holds by their type. -/

namespace Sys2Proof

/-- The engine that takes a Kukar instruction: a core's fetch or execute engine (R129, R132), or a keeper (R156). -/
inductive EngId where
  | fetch (c : Fin 32)
  | execute (c : Fin 32)
  | keeper (k : Fin 4)
  deriving DecidableEq, Repr

/-- The fields of an instruction word below its opcode (R129): bits [55:54] ENGINE, [53] GN, [52:50] GP, [49:0] operands. -/
structure KBits where
  engine : BitVec 2
  gn : Bool
  gp : Fin 8
  ops : BitVec 50
  deriving DecidableEq, Repr

/-- One access presented at a store port (R71 to R81); a write carries a byte enable with each word (R69). -/
inductive PortOp where
  | read (words : Nat)
  | write (data : List (Word × BitVec 4)) (poison : Bool)
  | compareCount (cond : Fin 6) (a : Word) (delta : BitVec 16)
  | add (x : Word)
  | compareSwap (e n : Word)
  deriving DecidableEq, Repr

/-- Which waiting access STORE_ACCESS performs: the next access of a core's stream (R201), the retry of a blocking operation
that found its watch list full (R78), an access of another unit at a store's port (R73), or the access that a store's system
port or the fabric bridge serves next (R74, R75).  `request` is a requester of the system port presenting an access there. -/
inductive AccessReq where
  | stream (c : Fin 32) (k : Fin 16)
  | retry (e : EngId)
  | port (store : Fin 5) (port : Fin 35) (addr : Addr) (op : PortOp)
  | request (store : Fin 5) (cls : Fin 5) (member : Fin 32) (addr : Addr) (op : PortOp)
  | system (store : Fin 5)
  deriving DecidableEq, Repr

/-- A Pulet frame (R370) from its VER_KIND on: the link header's SEQ and ACKN, the transaction header, the data, the end-to-end
CRC as it stands in the frame, and the bits of FLAGS and the byte at offset 39 that a sender leaves zero and a relay does not
change (R376). -/
structure Frame where
  seq : BitVec 16
  ackn : BitVec 16
  mtype : BitVec 8
  dst : BitVec 4
  src : BitVec 4
  hops : BitVec 8
  hostSrc : Bool
  hostDst : Bool
  ackReq : Bool
  poison : Bool
  first : Bool
  repair : Bool
  tag : BitVec 16
  win : BitVec 8
  status : BitVec 8
  gen : BitVec 16
  chan : BitVec 8
  group : BitVec 8
  offset : BitVec 40
  aux : Word
  data : List Byte
  crc : Word
  spareFlags : BitVec 2 := 0
  spare : BitVec 8 := 0
  deriving DecidableEq, Repr

/-- The contents of a gPTP message that this profile uses (R397, R399, R404, R406): the sequence number, the seconds and
nanoseconds of the time stamp it carries (the origin, the request's receipt or the response's departure), its correction field in
units of 2^−16 ns, the cumulative scaled rate offset, whether a Sync is two-step, and the domainNumber. -/
structure PtpMsg where
  seqId : BitVec 16
  seconds : BitVec 48
  nanos : BitVec 32
  correction : BitVec 64
  rateOffset : BitVec 32
  twoStep : Bool
  domain : BitVec 8 := 0
  deriving DecidableEq, Repr

/-- The time stamp of a gPTP message in ns (R397). -/
def PtpMsg.stamp (m : PtpMsg) : Nat := m.seconds.toNat * 1000000000 + m.nanos.toNat

/-- An I2C write's start (R442): the target address it names, and the pointer it sets. -/
structure I2cPointer where
  address : BitVec 7
  pointer : Byte
  deriving DecidableEq, Repr

/-- An I2C read (R442): the target address it names, and the bytes it takes. -/
structure I2cFetch where
  address : BitVec 7
  count : Nat
  deriving DecidableEq, Repr

/-- A frame with a correct FCS as it stands on a port's wire, from its destination address to the byte before its FCS (R369). -/
structure RawFrame where
  port : Fin 4
  bytes : List Byte
  deriving DecidableEq, Repr

/-- A sink's video format as its link layer reports it (R297, R298, R300, R320): the active size, the frame rate in mHz, the pixel
rate in kHz, and the encoding; with DSC, its slices per line and whether it is simple 4:2:2. -/
structure VideoFormat where
  hact : BitVec 13
  vact : BitVec 13
  rateMilliHz : Nat
  pixelKhz : Nat
  enc : Fin 4
  bpc : Fin 3
  dsc : Bool
  slices : Nat := 1
  simple422 : Bool := false
  deriving DecidableEq, Repr

/-- A change a sink's link layer reports (R297, R300). -/
inductive SinkEvent where
  | trained (rate : Fin 5) (format : VideoFormat)
  | lost
  | format (f : VideoFormat)
  | badFrame
  deriving DecidableEq, Repr

/-- A change a source's link layer reports (R338, R356, R366). -/
inductive SourceEvent where
  | hotPlug (present : Bool)
  | trained (rate : Fin 5)
  | lost
  | hdcp (auth type1Ok : Bool)
  deriving DecidableEq, Repr

/-- What an AVSBus transaction ended with (R51): a response with its two status bits, or an error,
with the status bits of its response where there was one. -/
inductive AvsReply where
  | ok (status : BitVec 2)
  | readback (status : BitVec 2) (vout iout : BitVec 16)
  | failed (status : Option (BitVec 2))
  deriving DecidableEq, Repr

/-- What the management tick finds in the counters that measure a millisecond of traffic (R96, R323, R516). -/
structure TickMeasures where
  storeUtil : List Nat
  hyperUtil : Nat
  motRead : List Nat
  motWrite : List Nat
  deriving DecidableEq, Repr

/-- What a raster finds at its frame boundary in the counters that measure the closing frame: for each stream and stripe, the
time in ns in which the stripe's skein neither waited for released input nor was blocked on a full enhanced-line ring (R53). -/
structure FrameMeasures where
  busyNs : List (List Nat)
  deriving DecidableEq, Repr

/-- The commands of the block: one constructor per row of spec/opcode_table.json, in its order. -/
inductive Instr where
  /-- REGISTER_WRITE (R5). -/
  | registerWrite (k : Fin 4) (addr : Addr) (bytes : Nat) (value : Word)
  /-- POWER_ON_RESET (R454). -/
  | powerOnReset (straps : BitVec 7)
  /-- WARM_RESET (R455). -/
  | warmReset
  /-- SOFTWARE_WARM_RESET (R454). -/
  | softwareWarmReset (value : Word)
  /-- JTAG_RESET (R454). -/
  | jtagReset
  /-- SUPPLY_FAULT (R499). -/
  | supplyFault
  /-- THERMAL_TRIP (R514). -/
  | thermalTrip (c : Fin 32) (reading : Int)
  /-- STORE_INIT_DONE (R88). -/
  | storeInitDone
  /-- BOOT_COMPLETE (R461). -/
  | bootComplete
  /-- STORE_ACCESS (R71). -/
  | storeAccess (r : AccessReq)
  /-- WATCH_RESULT (R79). -/
  | watchResult (e : EngId)
  /-- WATCH_WITHDRAW (R82). -/
  | watchWithdraw (e : EngId)
  /-- SLOT_WATCHDOG_EXPIRY (R219). -/
  | slotWatchdogExpiry (c : Fin 32)
  /-- SCRUB_READ (R87). -/
  | scrubRead (store : Fin 5) (octet : Fin 96)
  /-- BAND_REQUEST (R90). -/
  | bandRequest (store : Fin 5) (value : Word)
  /-- BAND_TRANSITION_DONE (R91). -/
  | bandTransitionDone (store : Fin 5) (band : Fin 8)
  /-- STO_COUNTER_CLEAR (R96). -/
  | stoCounterClear
  /-- MONITOR_WINDOW_END (R42). -/
  | monitorWindowEnd (c : Fin 32) (transits handshakes blockedNs : Nat)
  /-- BELAY_LOWER (R46). -/
  | belayLower
  /-- RAIL_BELOW_VLOW_RAISE (R47). -/
  | railBelowVlowRaise
  /-- AVS_TARGET_WRITE (R49). -/
  | avsTargetWrite (value : Word)
  /-- AVS_RESPONSE (R51). -/
  | avsResponse (r : AvsReply)
  /-- AVS_READBACK (R64). -/
  | avsReadback
  /-- AVS_FAULT_CLEAR (R51). -/
  | avsFaultClear (value : Word)
  /-- PMBUS_START (R64). -/
  | pmbusStart (value : Word)
  /-- PMBUS_DONE (R64). -/
  | pmbusDone (nack pecErr arbLost : Bool) (data : Word)
  /-- STRIPE_SHADOW_WRITE (R55). -/
  | stripeShadowWrite (x : Fin 2) (stripe : Fin 32) (value : Word)
  /-- CUM_CLEAR (R62). -/
  | cumClear (x : Fin 2) (value : Word)
  /-- CAL_USER_WRITE (R60). -/
  | calUserWrite (c : Fin 32) (value : Word)
  /-- USER_CLEAR (R63). -/
  | userClear (value : Word)
  /-- FRAME_BOUNDARY (R29). -/
  | frameBoundary (r : Fin 2) (m : FrameMeasures)
  /-- DECISION_INSTANT (R18). -/
  | decisionInstant (r : Fin 2) (n : Nat)
  /-- RELEASE_INSTANT (R15). -/
  | releaseInstant (x : Fin 2) (n : Nat)
  /-- LINE_BLEND (R324). -/
  | lineBlend (r : Fin 2) (n : Nat) (lanes : BitVec 8)
  /-- SURFACE_FETCH (R335). -/
  | surfaceFetch (layer : Fin 8) (line : Nat)
  /-- FLIP_EDGE (R412). -/
  | flipEdge (r : Fin 2)
  /-- NOP (R138). -/
  | nop (e : EngId) (opcode : BitVec 8) (b : KBits)
  /-- ADD (R139). -/
  | add (e : EngId) (b : KBits)
  /-- SUB (R139). -/
  | sub (e : EngId) (b : KBits)
  /-- AND (R139). -/
  | and (e : EngId) (b : KBits)
  /-- OR (R139). -/
  | or (e : EngId) (b : KBits)
  /-- XOR (R139). -/
  | xor (e : EngId) (b : KBits)
  /-- SHL (R139). -/
  | shl (e : EngId) (b : KBits)
  /-- SHR (R139). -/
  | shr (e : EngId) (b : KBits)
  /-- SRA (R139). -/
  | sra (e : EngId) (b : KBits)
  /-- MUL (R139). -/
  | mul (e : EngId) (b : KBits)
  /-- MIN (R139). -/
  | min (e : EngId) (b : KBits)
  /-- MAX (R139). -/
  | max (e : EngId) (b : KBits)
  /-- ADDI (R139). -/
  | addi (e : EngId) (b : KBits)
  /-- ANDI (R139). -/
  | andi (e : EngId) (b : KBits)
  /-- ORI (R139). -/
  | ori (e : EngId) (b : KBits)
  /-- XORI (R139). -/
  | xori (e : EngId) (b : KBits)
  /-- SHLI (R139). -/
  | shli (e : EngId) (b : KBits)
  /-- SHRI (R139). -/
  | shri (e : EngId) (b : KBits)
  /-- SRAI (R139). -/
  | srai (e : EngId) (b : KBits)
  /-- MULI (R139). -/
  | muli (e : EngId) (b : KBits)
  /-- CMP (R140). -/
  | cmp (e : EngId) (b : KBits)
  /-- CMPI (R140). -/
  | cmpi (e : EngId) (b : KBits)
  /-- PLOG (R140). -/
  | plog (e : EngId) (b : KBits)
  /-- GETN (R140). -/
  | getn (e : EngId) (b : KBits)
  /-- AMOVI (R141). -/
  | amovi (e : EngId) (b : KBits)
  /-- AADD (R141). -/
  | aadd (e : EngId) (b : KBits)
  /-- LD (R142). -/
  | ld (e : EngId) (b : KBits)
  /-- ST (R142). -/
  | st (e : EngId) (b : KBits)
  /-- DLD (R142). -/
  | dld (e : EngId) (b : KBits)
  /-- DST (R142). -/
  | dst (e : EngId) (b : KBits)
  /-- JMP (R145). -/
  | jmp (e : EngId) (b : KBits)
  /-- LOOP (R146). -/
  | loop (e : EngId) (b : KBits)
  /-- DSETW (R148). -/
  | dsetw (e : EngId) (b : KBits)
  /-- DGETW (R148). -/
  | dgetw (e : EngId) (b : KBits)
  /-- DMOV (R148). -/
  | dmov (e : EngId) (b : KBits)
  /-- DADDB (R148). -/
  | daddb (e : EngId) (b : KBits)
  /-- ARM (R149). -/
  | arm (e : EngId) (b : KBits)
  /-- REARM (R208). -/
  | rearm (e : EngId) (b : KBits)
  /-- SWAIT (R149). -/
  | swait (e : EngId) (b : KBits)
  /-- FILL (R151). -/
  | fill (e : EngId) (b : KBits)
  /-- DRAIN (R151). -/
  | drain (e : EngId) (b : KBits)
  /-- WAITF (R150). -/
  | waitf (e : EngId) (b : KBits)
  /-- WAITD (R150). -/
  | waitd (e : EngId) (b : KBits)
  /-- CMPCNT (R152). -/
  | cmpcnt (e : EngId) (b : KBits)
  /-- FADD (R152). -/
  | fadd (e : EngId) (b : KBits)
  /-- CAS (R152). -/
  | cas (e : EngId) (b : KBits)
  /-- HSEND (R120). -/
  | hsend (e : EngId) (b : KBits)
  /-- HRECV (R119). -/
  | hrecv (e : EngId) (b : KBits)
  /-- QREL (R153). -/
  | qrel (e : EngId) (b : KBits)
  /-- EPOCH_READY (R286). -/
  | epochReady (e : EngId) (b : KBits)
  /-- EPOCH_OPEN (R286). -/
  | epochOpen (e : EngId) (b : KBits)
  /-- EPOCH_COMMIT (R287). -/
  | epochCommit (e : EngId) (b : KBits)
  /-- EPOCH_ABORT (R286). -/
  | epochAbort (e : EngId) (b : KBits)
  /-- HALT (R155). -/
  | halt (e : EngId) (b : KBits)
  /-- MMA (R181). -/
  | mma (e : EngId) (b : KBits)
  /-- CONV (R182). -/
  | conv (e : EngId) (b : KBits)
  /-- WINO (R183). -/
  | wino (e : EngId) (b : KBits)
  /-- DWCONV (R184). -/
  | dwconv (e : EngId) (b : KBits)
  /-- POOL (R185). -/
  | pool (e : EngId) (b : KBits)
  /-- UPS (R186). -/
  | ups (e : EngId) (b : KBits)
  /-- ELEM_ADD (R187). -/
  | elemAdd (e : EngId) (b : KBits)
  /-- ELEM_SUB (R187). -/
  | elemSub (e : EngId) (b : KBits)
  /-- ELEM_MUL (R187). -/
  | elemMul (e : EngId) (b : KBits)
  /-- ELEM_MIN (R187). -/
  | elemMin (e : EngId) (b : KBits)
  /-- ELEM_MAX (R187). -/
  | elemMax (e : EngId) (b : KBits)
  /-- ELEM_ABS (R187). -/
  | elemAbs (e : EngId) (b : KBits)
  /-- ELEM_NEG (R187). -/
  | elemNeg (e : EngId) (b : KBits)
  /-- ELEM_MOV (R187). -/
  | elemMov (e : EngId) (b : KBits)
  /-- ELEM_SRAR (R187). -/
  | elemSrar (e : EngId) (b : KBits)
  /-- ELEM_SHL (R187). -/
  | elemShl (e : EngId) (b : KBits)
  /-- ELEM_CVTIF (R187). -/
  | elemCvtif (e : EngId) (b : KBits)
  /-- ELEM_CVTFI (R187). -/
  | elemCvtfi (e : EngId) (b : KBits)
  /-- ELEM_CVTFB (R187). -/
  | elemCvtfb (e : EngId) (b : KBits)
  /-- ELEM_CVTBF (R187). -/
  | elemCvtbf (e : EngId) (b : KBits)
  /-- ELEM_EXP2 (R187). -/
  | elemExp2 (e : EngId) (b : KBits)
  /-- ELEM_RCP (R187). -/
  | elemRcp (e : EngId) (b : KBits)
  /-- ELEM_RSQRT (R187). -/
  | elemRsqrt (e : EngId) (b : KBits)
  /-- ELEM_RMAX (R187). -/
  | elemRmax (e : EngId) (b : KBits)
  /-- ELEM_RSUM (R187). -/
  | elemRsum (e : EngId) (b : KBits)
  /-- REQ_SCALAR (R255). -/
  | reqScalar (e : EngId) (b : KBits)
  /-- REQ_TABLE (R255). -/
  | reqTable (e : EngId) (b : KBits)
  /-- REQ_DYNAMIC (R258). -/
  | reqDynamic (e : EngId) (b : KBits)
  /-- REQ_LOAD (R189). -/
  | reqLoad (e : EngId) (b : KBits)
  /-- STAT_MAXABS (R193). -/
  | statMaxabs (e : EngId) (b : KBits)
  /-- STAT_MSE (R193). -/
  | statMse (e : EngId) (b : KBits)
  /-- ROT (R194). -/
  | rot (e : EngId) (b : KBits)
  /-- BOXD (R195). -/
  | boxd (e : EngId) (b : KBits)
  /-- NMS (R196). -/
  | nms (e : EngId) (b : KBits)
  /-- DIGEST_CLEAR (R192). -/
  | digestClear (e : EngId) (b : KBits)
  /-- DIGEST_CHECK (R192). -/
  | digestCheck (e : EngId) (b : KBits)
  /-- ENGINE_RESUME (R103). -/
  | engineResume (e : EngId)
  /-- STREAM_ARMING_COMPLETE (R203). -/
  | streamArmingComplete (c : Fin 32) (k : Fin 16)
  /-- CHAIN_STALL (R121). -/
  | chainStall (c : Fin 32)
  /-- CORE_START (R106). -/
  | coreStart (c : Fin 32)
  /-- CORE_HALT (R107). -/
  | coreHalt (c : Fin 32)
  /-- CORE_STOP (R108). -/
  | coreStop (c : Fin 32)
  /-- CORE_WITHDRAW (R111). -/
  | coreWithdraw (c : Fin 32)
  /-- CORE_RESTORE (R106). -/
  | coreRestore (c : Fin 32)
  /-- CHAIN_CUT (R122). -/
  | chainCut (c : Fin 32)
  /-- CORE_BIND_SET (R106). -/
  | coreBindSet (c : Fin 32) (value : Word)
  /-- CORE_BIND_CLEAR (R106). -/
  | coreBindClear (c : Fin 32) (value : Word)
  /-- CORE_CONFIG_WRITE (R110). -/
  | coreConfigWrite (c : Fin 32) (chainCfg : Bool) (value : Word)
  /-- RING_TABLE_WRITE (R216). -/
  | ringTableWrite (c : Fin 32) (ring : Fin 16) (word : Fin 3) (value : Word)
  /-- RING_CUT (R223). -/
  | ringCut (c : Fin 32) (value : Word)
  /-- RING_CUT_DONE (R223). -/
  | ringCutDone (c : Fin 32)
  /-- POCKET_INDEX_WRITE (R160). -/
  | pocketIndexWrite (c : Fin 32) (value : Word)
  /-- POCKET_WRITE (R160). -/
  | pocketWrite (c : Fin 32) (value : Word)
  /-- POCKET_LOAD (R162). -/
  | pocketLoad (c : Fin 32) (value : Word)
  /-- POCKET_LOAD_DONE (R162). -/
  | pocketLoadDone (c : Fin 32)
  /-- DIGEST_LO_READ (R126). -/
  | digestLoRead (c : Fin 32)
  /-- KNOT_EVICT (R270). -/
  | knotEvict (value : Word)
  /-- KNOT_REMOVE (R270). -/
  | knotRemove (value : Word)
  /-- LIBRARY_IMPORT (R276). -/
  | libraryImport (value : Word)
  /-- IMPORT_END (R276). -/
  | importEnd
  /-- LOAD_COMPLETE (R279). -/
  | loadComplete (knot : Fin 10240)
  /-- VERIFY (R280). -/
  | verify (value : Word)
  /-- VERIFY_END (R280). -/
  | verifyEnd
  /-- BIND_GO (R282). -/
  | bindGo (value : Word)
  /-- BIND_PREPARED (R283). -/
  | bindPrepared (slot : Fin 32)
  /-- BIND_APPLY (R284). -/
  | bindApply (slot : Fin 32)
  /-- BIND_CANCEL (R281). -/
  | bindCancel (value : Word)
  /-- BIND_UNBIND (R285). -/
  | bindUnbind (value : Word)
  /-- SINK_LINK_EVENT (R297). -/
  | sinkLinkEvent (i : Fin 2) (ev : SinkEvent)
  /-- SINK_LINE_ARRIVAL (R299). -/
  | sinkLineArrival (i : Fin 2) (line : Nat) (pixels : List (List (BitVec 12)))
  /-- SINK_VIDEO_TIMEOUT (R300). -/
  | sinkVideoTimeout (i : Fin 2)
  /-- VSC_SDP (R297). -/
  | vscSdp (i : Fin 2) (db : BitVec 24)
  /-- SINK_HDCP_CHANGE (R301). -/
  | sinkHdcpChange (i : Fin 2) (encrypted type1 : Bool)
  /-- INPUT_ROW_WRITE (R304). -/
  | inputRowWrite (x : Fin 2) (j : Nat)
  /-- HOLD_EXPIRY (R315). -/
  | holdExpiry (x : Fin 2)
  /-- COMMIT (R348). -/
  | commit (value : Word)
  /-- COMMIT_CANCEL (R350). -/
  | commitCancel
  /-- LUT_DATA_ACCESS (R340). -/
  | lutDataAccess (write : Option Word)
  /-- CV_LOAD (R344). -/
  | cvLoad (value : Word)
  /-- CV_LOAD_DONE (R344). -/
  | cvLoadDone
  /-- TIMING_APPLY (R353). -/
  | timingApply (r : Fin 2) (value : Word)
  /-- SOURCE_LINK_EVENT (R346). -/
  | sourceLinkEvent (o : Fin 2) (ev : SourceEvent)
  /-- PHY_LINK_UP (R373). -/
  | phyLinkUp (p : Fin 4) (slow master : Bool)
  /-- PHY_LINK_DOWN (R373). -/
  | phyLinkDown (p : Fin 4)
  /-- PORT_RESYNC (R373). -/
  | portResync (p : Fin 4)
  /-- SYNC_TIMER (R373). -/
  | syncTimer (p : Fin 4)
  /-- SYNC (R373). -/
  | sync (p : Fin 4)
  /-- SYNC_ACK (R373). -/
  | syncAck (p : Fin 4)
  /-- DATA (R374). -/
  | data (p : Fin 4) (f : Frame)
  /-- ACK (R374). -/
  | ack (p : Fin 4) (ackn : BitVec 16)
  /-- NAK (R374). -/
  | nak (p : Fin 4) (ackn : BitVec 16)
  /-- RETRANSMIT_TIMEOUT (R374). -/
  | retransmitTimeout (p : Fin 4)
  /-- WRITE (R381). -/
  | write (p : Fin 4)
  /-- SPLICE (R244). -/
  | splice (p : Fin 4)
  /-- READ (R381). -/
  | read (p : Fin 4)
  /-- ATOMIC (R381). -/
  | atomic (p : Fin 4)
  /-- MCAST (R389). -/
  | mcast (p : Fin 4)
  /-- MGMT_RD (R384). -/
  | mgmtRd (p : Fin 4)
  /-- MGMT_WR (R384). -/
  | mgmtWr (p : Fin 4)
  /-- FLIP (R416). -/
  | flip (p : Fin 4)
  /-- WRITE_RESPONSE (R386). -/
  | writeResponse (p : Fin 4)
  /-- READ_RESPONSE (R386). -/
  | readResponse (p : Fin 4)
  /-- ATOMIC_RESPONSE (R371). -/
  | atomicResponse (p : Fin 4)
  /-- MCAST_ACK (R390). -/
  | mcastAck (p : Fin 4)
  /-- WINDOW_OPEN (R380). -/
  | windowOpen (value : Word)
  /-- WINDOW_CLOSE (R382). -/
  | windowClose (value : Word)
  /-- WINDOW_CLOSE_DONE (R382). -/
  | windowCloseDone (w : Fin 256)
  /-- DMA_GO (R385). -/
  | dmaGo (ch : Fin 32) (value : Word)
  /-- DMA_ABORT (R386). -/
  | dmaAbort (ch : Fin 32)
  /-- DMA_TXN_ISSUE (R386). -/
  | dmaTxnIssue (ch : Fin 32)
  /-- DMA_TXN_TIMEOUT (R386). -/
  | dmaTxnTimeout (ch : Fin 32) (tag : BitVec 16)
  /-- MCAST_REPAIR_TIMEOUT (R390). -/
  | mcastRepairTimeout (ch : Fin 32) (member : Fin 12)
  /-- SPLICE_LINE_SEND (R243). -/
  | spliceLineSend (ch : Fin 32)
  /-- FI_CTRL_WRITE (R391). -/
  | fiCtrlWrite (p : Fin 4) (value : Word)
  /-- FI_HOLD_RELEASE (R391). -/
  | fiHoldRelease (p : Fin 4)
  /-- TIME_STEP (R398). -/
  | timeStep (value : Word)
  /-- TIME_NOW_READ (R396). -/
  | timeNowRead
  /-- PTP_SYNC (R399). -/
  | ptpSync (p : Fin 4) (m : PtpMsg)
  /-- PTP_FOLLOW_UP (R406). -/
  | ptpFollowUp (p : Fin 4) (m : PtpMsg)
  /-- FOLLOW_UP_TIMEOUT (R406). -/
  | followUpTimeout (p : Fin 4)
  /-- RATE_TAKE_EFFECT (R400). -/
  | rateTakeEffect
  /-- HOLDOVER_ENTRY (R403). -/
  | holdoverEntry
  /-- GM_SYNC_SEND (R407). -/
  | gmSyncSend (p : Fin 4)
  /-- PDELAY_REQ_SEND (R404). -/
  | pdelayReqSend (p : Fin 4)
  /-- PDELAY_REQ (R404). -/
  | pdelayReq (p : Fin 4) (m : PtpMsg)
  /-- PDELAY_RESP (R404). -/
  | pdelayResp (p : Fin 4) (m : PtpMsg)
  /-- PDELAY_RESP_FOLLOW_UP (R404). -/
  | pdelayRespFollowUp (p : Fin 4) (m : PtpMsg)
  /-- ANNOUNCE (R404). -/
  | announce (p : Fin 4)
  /-- FLIP_ANNOUNCE_CHECK (R417). -/
  | flipAnnounceCheck
  /-- ANN_LOST_CLEAR (R418). -/
  | annLostClear (value : Word)
  /-- KEEPER_START (R424). -/
  | keeperStart (k : Fin 4)
  /-- KEEPER_HALT (R424). -/
  | keeperHalt (k : Fin 4)
  /-- KEEPER_RESET (R424). -/
  | keeperReset (k : Fin 4)
  /-- MANAGEMENT_TICK (R427). -/
  | managementTick (m : TickMeasures)
  /-- DOORBELL (R429). -/
  | doorbell (value : Word)
  /-- WATCHDOG_KICK (R429). -/
  | watchdogKick (k : Fin 4) (value : Word)
  /-- KEEPER_WATCHDOG_EXPIRY (R429). -/
  | keeperWatchdogExpiry (k : Fin 4)
  /-- IRQ_CLAIM (R434). -/
  | irqClaim (t : Fin 5)
  /-- IRQ_WAIT (R435). -/
  | irqWait (t : Fin 5)
  /-- IRQ_WAIT_RETURN (R435). -/
  | irqWaitReturn (t : Fin 5)
  /-- IRQ_COMPLETE (R436). -/
  | irqComplete (t : Fin 5) (value : Word)
  /-- RPT_SEQ_READ (R431). -/
  | rptSeqRead (x : Fin 2)
  /-- EVENT_SEND (R439). -/
  | eventSend
  /-- EVENT_RESEND (R440). -/
  | eventResend (src : Fin 256)
  /-- EVENT_CHANNEL_DISABLE (R441). -/
  | eventChannelDisable (value : Word)
  /-- I2C_WRITE (R442). -/
  | i2cWrite (start : I2cPointer) (data : List Byte)
  /-- I2C_READ (R442). -/
  | i2cRead (read : I2cFetch)
  /-- MAILBOX_SEND (R443). -/
  | mailboxSend
  /-- MAILBOX_ACK (R443). -/
  | mailboxAck
  /-- H2D_DONE (R444). -/
  | h2dDone (value : Word)
  /-- D2H_SEND (R444). -/
  | d2hSend (value : Word)
  /-- XSPI_SECTOR_ERASE (R463). -/
  | xspiSectorErase (k : Fin 4) (value : Word)
  /-- XSPI_PAGE_PROGRAM (R463). -/
  | xspiPageProgram (k : Fin 4) (value : Word)
  /-- XSPI_DONE (R463). -/
  | xspiDone
  /-- OTP_READ (R467). -/
  | otpRead (value : Word)
  /-- OTP_PROGRAM (R468). -/
  | otpProgram (value : Word) (vppLow : Bool)
  /-- OTP_DONE (R468). -/
  | otpDone
  /-- SVN_ADVANCE (R468). -/
  | svnAdvance (value : Word) (vppLow : Bool)
  /-- ATT_REPORT (R471). -/
  | attReport (value : Word)
  /-- ATT_REPORT_SESSION (R471). -/
  | attReportSession (value : Word)
  /-- GCM_ENCRYPT (R473). -/
  | gcmEncrypt (value : Word)
  /-- GCM_DECRYPT (R473). -/
  | gcmDecrypt (value : Word)
  /-- ATT_DONE (R471). -/
  | attDone
  /-- MEASUREMENT_EXTEND (R472). -/
  | measurementExtend (value : Word)
  /-- FAULT_POP (R479). -/
  | faultPop (value : Word)
  /-- AUDIT_REQUEST (R487). -/
  | auditRequest (value : Word)
  /-- AUDIT_RUN (R483). -/
  | auditRun
  /-- AUDIT_COMPLETE (R483). -/
  | auditComplete (signature : BitVec 64) (rate : Nat)
  /-- AUDIT_HALT_TIMEOUT (R486). -/
  | auditHaltTimeout
  /-- SLICE_START (R488). -/
  | sliceStart
  /-- SLICE_END (R488). -/
  | sliceEnd (passed : Bool)
  /-- INJECTION_ARM (R489). -/
  | injectionArm (value : Word)
  /-- INJECTION_HOLD_END (R489). -/
  | injectionHoldEnd
  /-- HYPERRAM_INIT (R505). -/
  | hyperramInit (value : Word)
  /-- HYPERRAM_INIT_DONE (R505). -/
  | hyperramInitDone (failed : BitVec 16)
  /-- NO_SLOT_BOOTED (R462). -/
  | noSlotBooted
  /-- IDENTITY_KEY_READY (R470). -/
  | identityKeyReady
  /-- JUNCTION_TEMPERATURE_CHANGE (R44). -/
  | junctionTemperatureChange (c : Fin 32) (reading : Int)
  /-- SECONDARY_DATA_PACKET (R297). -/
  | secondaryDataPacket (i : Fin 2)
  /-- FCS_ERROR (R369). -/
  | fcsError (p : Fin 4)
  /-- OTHER_FRAME (R369): a frame as it stands on the wire, which the port itself sorts. -/
  | otherFrame (raw : RawFrame)
  deriving DecidableEq, Repr

end Sys2Proof
end

