-- ==== Sys2Proof/WellFormed.lean ====
section
/-! DEFINITION. What a command's operands must satisfy to be something the outside world can present.  Instance numbers are
bounded by their types (R10); what is left are lengths and alignments that the senders themselves keep. -/

namespace Sys2Proof

/-- An access at a store port carries 1 to 64 words (R68). -/
def PortOp.wellFormed : PortOp → Bool
  | .read n => decide (1 ≤ n ∧ n ≤ 64)
  | .write d _ => decide (1 ≤ d.length ∧ d.length ≤ 64)
  | _ => true

/-- The number of ports of each store (R73). -/
def portsOf (store : Fin 5) : Nat := [33, 35, 33, 1, 8].getD store.val 0

/-- The members of each requester class of a system port: four keepers, 32 DMA channels, and one of each other (R74). -/
def membersOf (cls : Fin 5) : Nat := [4, 32, 1, 1, 1].getD cls.val 0

/-- An access names a port its store has (R73), or a member its class has (R74). -/
def AccessReq.wellFormed : AccessReq → Bool
  | .port store n _addr op => decide (n.val < portsOf store) && op.wellFormed
  | .request _ cls member _addr op => decide (member.val < membersOf cls) && op.wellFormed
  | _ => true

/-- A frame's data are a multiple of four bytes, at most 8,192 (R370). -/
def Frame.wellFormed (f : Frame) : Bool := decide (f.data.length % 4 = 0 ∧ f.data.length ≤ 8192)

/-- Bits `lo + n - 1` to `lo` of the operands of an instruction word. -/
def KBits.field (b : KBits) (lo n : Nat) : Nat := (b.ops.extractLsb' lo n).toNat

/-- The opcodes that the tables of R138 and R176 assign. -/
def assignedOpcodes : List Nat :=
  [0x00, 0x01, 0x02, 0x03, 0x04, 0x05, 0x06, 0x07, 0x08, 0x09, 0x0A, 0x0B, 0x10, 0x11, 0x12, 0x13, 0x14, 0x15, 0x16, 0x17, 0x18, 0x19,
    0x1A, 0x1B, 0x20, 0x21, 0x28, 0x29, 0x2A, 0x2B, 0x30, 0x31, 0x38, 0x39, 0x3A, 0x3B, 0x40, 0x41, 0x42, 0x48, 0x49, 0x4A, 0x4B] ++
  [0x50, 0x51, 0x52, 0x58, 0x59, 0x5A, 0x60, 0x61, 0x80, 0x81, 0x82, 0x83, 0x88, 0x89, 0x90, 0x98, 0x99, 0x9A, 0xA0, 0xA1, 0xA8]

/-- Whether the word of opcode `op` is the word of no command but NOP: the opcode of NOP, an unassigned one, or an operation that ELEM,
STAT, ROT or DIGEST does not have (R131, R177, R178, R187). -/
def nopWord (op : Nat) (b : KBits) : Bool :=
  op == 0 || !assignedOpcodes.contains op || (op == 0x90 && decide (19 ≤ b.field 45 5)) ||
    ((op == 0x99 || op == 0x9A || op == 0xA8) && decide (2 ≤ b.field 48 2))

/-- The value of the operation field of the commands that share an opcode: EPOCH, ELEM, REQ, STAT and DIGEST (R137, R177, R187). -/
def Instr.operation : Instr → Option (Nat × Nat)
  | .epochReady _ b => some (b.field 48 2, 0)
  | .epochOpen _ b => some (b.field 48 2, 1)
  | .epochCommit _ b => some (b.field 48 2, 2)
  | .epochAbort _ b => some (b.field 48 2, 3)
  | .elemAdd _ b => some (b.field 45 5, 0)
  | .elemSub _ b => some (b.field 45 5, 1)
  | .elemMul _ b => some (b.field 45 5, 2)
  | .elemMin _ b => some (b.field 45 5, 3)
  | .elemMax _ b => some (b.field 45 5, 4)
  | .elemAbs _ b => some (b.field 45 5, 5)
  | .elemNeg _ b => some (b.field 45 5, 6)
  | .elemMov _ b => some (b.field 45 5, 7)
  | .elemSrar _ b => some (b.field 45 5, 8)
  | .elemShl _ b => some (b.field 45 5, 9)
  | .elemCvtif _ b => some (b.field 45 5, 10)
  | .elemCvtfi _ b => some (b.field 45 5, 11)
  | .elemCvtfb _ b => some (b.field 45 5, 12)
  | .elemCvtbf _ b => some (b.field 45 5, 13)
  | .elemExp2 _ b => some (b.field 45 5, 14)
  | .elemRcp _ b => some (b.field 45 5, 15)
  | .elemRsqrt _ b => some (b.field 45 5, 16)
  | .elemRmax _ b => some (b.field 45 5, 17)
  | .elemRsum _ b => some (b.field 45 5, 18)
  | .reqScalar _ b => some (b.field 31 2, 0)
  | .reqTable _ b => some (b.field 31 2, 1)
  | .reqDynamic _ b => some (b.field 31 2, 2)
  | .reqLoad _ b => some (b.field 31 2, 3)
  | .statMaxabs _ b => some (b.field 48 2, 0)
  | .statMse _ b => some (b.field 48 2, 1)
  | .digestClear _ b => some (b.field 48 2, 0)
  | .digestCheck _ b => some (b.field 48 2, 1)
  | _ => none

/-- Whether a command's operation field holds the command's own operation. -/
def Instr.operationOk (i : Instr) : Bool :=
  match i.operation with
  | some (x, k) => x == k
  | none => true

/-- What each command's operands must satisfy. -/
def Instr.wellFormed (i : Instr) : Bool :=
  i.operationOk && match i with
  | .nop _ op b => nopWord op.toNat b
  | .storeAccess r => r.wellFormed
  | .data _ f => f.wellFormed
  | .managementTick m => decide (m.storeUtil.length = 5 ∧ m.motRead.length = 2 ∧ m.motWrite.length = 2)
  | _ => true

end Sys2Proof
end

