-- ==== Sys2Proof/Decode.lean ====
section
/-! DEFINITION. The decoder of table words, which gives no command, for no row of spec/opcode_table.json gives bits; and the decoder of
Kukar words (R129): the fields of an instruction's 64 bits, and the command that each opcode byte names (R137, R138, R176). -/

namespace Sys2Proof

/-- The command a word spells by the table's bits: none, since every row's list of fields is empty. -/
def decodeTableWord (_nbits _w : Nat) : Option Instr := none

/-! ### Kukar words (R129) -/

/-- The opcode of an instruction word: bits [63:56] (R129). -/
def opcodeOf (w : BitVec 64) : BitVec 8 := w.extractLsb' 56 8

/-- The fields of an instruction word below its opcode: [55:54] ENGINE, [53] GN, [52:50] GP, [49:0] operands (R129). -/
def KBits.ofWord (w : BitVec 64) : KBits :=
  { engine := w.extractLsb' 54 2, gn := w.getLsbD 53, gp := (w.extractLsb' 50 3).toFin, ops := w.extractLsb' 0 50 }

/-- EPOCH by its operation, bits [49:48] (R137, R154). -/
def decodeEpoch (e : EngId) (b : KBits) : Instr :=
  match b.field 48 2 with
  | 0 => .epochReady e b
  | 1 => .epochOpen e b
  | 2 => .epochCommit e b
  | _ => .epochAbort e b

/-- ELEM by its operation, bits [49:45] (R177, R187); one that is not listed is no command's word. -/
def decodeElem (e : EngId) (b : KBits) : Instr :=
  match b.field 45 5 with
  | 0 => .elemAdd e b
  | 1 => .elemSub e b
  | 2 => .elemMul e b
  | 3 => .elemMin e b
  | 4 => .elemMax e b
  | 5 => .elemAbs e b
  | 6 => .elemNeg e b
  | 7 => .elemMov e b
  | 8 => .elemSrar e b
  | 9 => .elemShl e b
  | 10 => .elemCvtif e b
  | 11 => .elemCvtfi e b
  | 12 => .elemCvtfb e b
  | 13 => .elemCvtbf e b
  | 14 => .elemExp2 e b
  | 15 => .elemRcp e b
  | 16 => .elemRsqrt e b
  | 17 => .elemRmax e b
  | 18 => .elemRsum e b
  | _ => .nop e 0x90 b

/-- REQ by its mode, bits [32:31] (R177, R189). -/
def decodeReq (e : EngId) (b : KBits) : Instr :=
  match b.field 31 2 with
  | 0 => .reqScalar e b
  | 1 => .reqTable e b
  | 2 => .reqDynamic e b
  | _ => .reqLoad e b

/-- STAT by its operation, bits [49:48] (R177, R193). -/
def decodeStat (e : EngId) (b : KBits) : Instr :=
  match b.field 48 2 with
  | 0 => .statMaxabs e b
  | 1 => .statMse e b
  | _ => .nop e 0x99 b

/-- DIGEST by its operation, bits [49:48] (R177, R192). -/
def decodeDigest (e : EngId) (b : KBits) : Instr :=
  match b.field 48 2 with
  | 0 => .digestClear e b
  | 1 => .digestCheck e b
  | _ => .nop e 0xA8 b

/-- The tensor instructions by their opcodes (R176). -/
def decodeTensor (e : EngId) (op : BitVec 8) (b : KBits) : Instr :=
  match op.toNat with
  | 0x80 => .mma e b
  | 0x81 => .conv e b
  | 0x82 => .wino e b
  | 0x83 => .dwconv e b
  | 0x88 => .pool e b
  | 0x89 => .ups e b
  | 0x9A => .rot e b
  | 0xA0 => .boxd e b
  | 0xA1 => .nms e b
  | 0x90 => decodeElem e b
  | 0x98 => decodeReq e b
  | 0x99 => decodeStat e b
  | 0xA8 => decodeDigest e b
  | _ => .nop e op b

/-- The command that an engine's instruction word is: the instruction its opcode names (R138, R176), or, for an opcode or operation that
no table assigns, the row of NOP with that opcode, which faults (R131). -/
def decodeKukar (e : EngId) (w : BitVec 64) : Instr :=
  let b := KBits.ofWord w
  match (opcodeOf w).toNat with
  | 0x00 => .nop e 0 b
  | 0x01 => .add e b
  | 0x02 => .sub e b
  | 0x03 => .and e b
  | 0x04 => .or e b
  | 0x05 => .xor e b
  | 0x06 => .shl e b
  | 0x07 => .shr e b
  | 0x08 => .sra e b
  | 0x09 => .mul e b
  | 0x0A => .min e b
  | 0x0B => .max e b
  | 0x10 => .addi e b
  | 0x11 => .andi e b
  | 0x12 => .ori e b
  | 0x13 => .xori e b
  | 0x14 => .shli e b
  | 0x15 => .shri e b
  | 0x16 => .srai e b
  | 0x17 => .muli e b
  | 0x18 => .cmp e b
  | 0x19 => .cmpi e b
  | 0x1A => .plog e b
  | 0x1B => .getn e b
  | 0x20 => .amovi e b
  | 0x21 => .aadd e b
  | 0x28 => .ld e b
  | 0x29 => .st e b
  | 0x2A => .dld e b
  | 0x2B => .dst e b
  | 0x30 => .jmp e b
  | 0x31 => .loop e b
  | 0x38 => .dsetw e b
  | 0x39 => .dgetw e b
  | 0x3A => .dmov e b
  | 0x3B => .daddb e b
  | 0x40 => .arm e b
  | 0x41 => .rearm e b
  | 0x42 => .swait e b
  | 0x48 => .fill e b
  | 0x49 => .drain e b
  | 0x4A => .waitf e b
  | 0x4B => .waitd e b
  | 0x50 => .cmpcnt e b
  | 0x51 => .fadd e b
  | 0x52 => .cas e b
  | 0x58 => .hsend e b
  | 0x59 => .hrecv e b
  | 0x5A => .qrel e b
  | 0x61 => .halt e b
  | 0x60 => decodeEpoch e b
  | _ => decodeTensor e (opcodeOf w) b

end Sys2Proof
end

