-- ==== Sys2Proof/Config.lean ====
section
/-! DEFINITION. What the spec leaves open: free values, which no proof can see (they are constants without a body). -/

namespace Sys2Proof.Config

/-- A free word: what an undefined content reads as.  `gen` tells one undefined content from the next, `i` the word in it
(R98, R99, R100, R172, R257; DEDUCED, log entry 20). -/
opaque freeWord (gen i : Nat) : Word

/-- A free bit: the poison bit of an undefined content (DEDUCED, log entry 20). -/
opaque freeBit (gen i : Nat) : Bool

/-- A free byte (DEDUCED, log entry 20). -/
opaque freeByte (gen i : Nat) : Byte

/-- A free number: a value the spec gives a range or a unit but no rule for (DEDUCED, log entry 21). -/
opaque freeNat (gen i : Nat) : Nat

/-- How far above 0.72 V the regulator holds the core rail before the first AVSBus command, mV (R52: between 0.72 and 0.85 V; DEDUCED,
log entry 28). -/
opaque powerUpOver : Fin 131

/-- The core rail before the first AVSBus command, mV (R52; DEDUCED, log entry 28). -/
def powerUpRail : Nat := 720 + powerUpOver.val

/-- The private scalar of an ephemeral P-384 key, less one, from the random bit generator (R470; DEDUCED, log entry 22). -/
opaque ephemeralScalar (gen : Nat) : Nat

/-- The session key where the requester's public key is no point of the curve, of which the spec states nothing (R473; DESIGN CHOICE,
log entry 250). -/
opaque freeKey (scalar peer : Nat) : BitVec 256

/-- How the stores' code decodes three or more inverted bits of a word's 40, given as a mask: `none`, as uncorrectable; else the
inverted bits that are left, all of them where the word is taken as clean (R83; DEDUCED, log entry 199). -/
opaque eccResidue (inverted : BitVec 40) : Option (BitVec 40)

/-- The signature a core's audit program must give (R483: "the fixed value", which the spec does not print; DEDUCED, log entry 23). -/
opaque auditSignature : BitVec 64

/-- The Ubsal-F encoder: the bytes of a block of 64 × 4 pixels from its samples, by format (R310, R311: the bit layout is
private to the device; DEDUCED, log entry 24). -/
opaque ubsalFEncode (fmt : Nat) (samples : List Nat) : List Byte

/-- The Ubsal-F decoder: sample `n` of a block, in the order the encoder takes them (R311; DEDUCED, log entry 24). -/
opaque ubsalFDecode (fmt : Nat) (block : List Byte) (n : Nat) : BitVec 10

/-- Of a minimum (`max` false) or maximum of two binary32 values for which the spec states no result (one is a NaN, or they
are zeros of both signs): whether it is the NaN, or the first operand (R187, R188; DESIGN CHOICE, log entry 25). -/
opaque fpFirst (max : Bool) (a b : Word) : Bool

end Sys2Proof.Config
end

