-- ==== Sys2Proof/Machine/RegMap.lean ====
section
/-! DEFINITION. The register map: one name per register of the spec's register tables, its place, its field types, its
reset value and its fields.  Written from the register tables of chapters 02 to 18 (R62, R63, R64, R96, R126, R160, R226,
R295, R296, R320, R322, R323, R362 to R367, R392, R393, R422, R450, R452, R453, R474, R476, R491, R516). -/

namespace Sys2Proof.Machine

/-- The registers of the device by the names the spec gives them (R5). -/
inductive RegId where
  | FAB_CTRL | FAB_STATUS | BELAY_SLACK | BELAY_TIME | BELAY_VLIM | BELAY_STATE | BELAY_EVT | BELAY_IEN | RAISE_COUNT | LOWER_COUNT | AT_MAX_COUNT
  | REBAL_CFG | MON_CFG | CORE_EN | MON_DISAGREE | CORE_SPEED | RPT_SEQ | RPT_TIME_LO | RPT_TIME_HI | RPT_CFG | RPT_MIN | RPT_MINPOS | RPT_FORCED
  | RPT_POISONED | RPT_LATE | RPT_POLICY | RPT_MISSING | CUM_FORCED | CUM_POISONED | CUM_LATE | CUM_POLICY | LIVE_SLACK | CUM_CLEAR | EFF_SLACK
  | GEOM_LIMIT | STRIPE_SLACK | STRIPE_GEOM | STRIPE_SHADOW | STRIPE_PROPOSAL | STRIPE_RATE | CAL_CTRL | CAL_CLAMP | CAL_FLIM_V | CAL_FLIM_G
  | CAL_FLIM_T | CAL_FV | CAL_FGT | CAL_USER | CAL_EV | CAL_EGT | AVS_CTRL | AVS_TARGET | AVS_STATUS | AVS_READ | AVS_ERRCNT | AVS_POLL | PMB_CTRL
  | PMB_XFER | PMB_DATA | PMB_STATUS | STO_CTRL | STO_STATUS | STO_EVT | STO_IEN | STO_SCRUB_CFG | STO_UNC_ADDR_LO | STO_UNC_ADDR_HI
  | STO_CORR_ADDR_LO | STO_CORR_ADDR_HI | STO_BAND | STO_GEOM | STO_ECC_CORR | STO_ECC_UNC | STO_SCRUB_PASS | STO_WATCH | STO_UTIL | STO_WHEEL
  | KNT_CTRL | KNT_STATUS | KNT_EVT | KNT_IEN | EPOCH_NUM | EPOCH_CORES | EPOCH_READY | EPOCH_STREAMS | EPOCH_PARTIAL_CNT | EPOCH_STRAY | KNT_SEL
  | KNT_ENTRY | BIND_SEL | BIND_KNOT | BIND_TARGET | BIND_CORES | BIND_GEOM | BIND_CTRL | BIND_STATUS | VER_CTRL | VER_STATUS | LSE_SEL | LSE_ADDR_LO
  | LSE_ADDR_HI | LSE_LAST | LSE_OWNER | LSE_COUNT | LIB_BASE_LO | LIB_BASE_HI | LIB_SIZE | IMP_KNOT | IMP_OFS | IMP_LEN | IMP_CTRL | IMP_STATUS
  | LIB_IMPORTS | HYP_CTRL | HYP_CFG | HYP_TIMING | HYP_STATUS | HYP_CHERR | HYP_UTIL | KEP_CTRL | KEP_STATE | KEP_FAULT | KEP_PEVT | KEP_RING
  | TICK_COUNT | TICK_OVERRUN | KEP_WDOG | MBX_STATUS | MBX_CTRL | MBX_EVT | MBX_IEN | MBX_H2D | MBX_D2H | IRQ_SOFT_LO | IRQ_SOFT_HI | IRQ_SOFTSET_LO
  | IRQ_SOFTSET_HI | IRQ_CLAIM | IRQ_WAIT | IRQ_COMPLETE | IRQ_THRESH | IRQ_MISCOUNT | IRQ_CLAIMS | IRQ_CFG | IRQ_PCFG | BOOT_STATUS | BOOT_GEN
  | BOOT_SVN | BOOT_NEXT | BOOT_EVT | BOOT_IEN | OTP_ADDR | OTP_DATA | OTP_CMD | OTP_STATUS | SVN_ADV | OTP_SVN | XSPI_ADDR | XSPI_CMD | XSPI_STATUS
  | ATT_SRC | ATT_DST | ATT_CTRL | ATT_STATUS | MEAS_SRC | MEAS_CTRL | XSPI_BUF | BOOT_IDPUB | SYS_ID | SYS_STRAPS | SYS_RST | SYS_CAUSE | SYS_WARMS
  | SYS_SCRATCH | TST_CTRL | TST_STATUS | TST_EVT | TST_IEN | TST_AUDIT_MASK | TST_AUDIT_REQ | TST_SAVE | TST_AUDIT_LAST | TST_AUDIT_CNT
  | TST_DEFER_CNT | TST_SKIP_CNT | TST_SLICE | FLT_REC | FLT_POP | FLT_STATUS | FLT_LOST | FLT_CNT | TST_INJ_CTRL | TST_INJ_ADDR_LO | TST_INJ_ADDR_HI
  | TST_INJ_PARAM | TST_INJ_DUR | TST_INJ_CNT | CORE_CTRL | CORE_STATE | CORE_BIND | CORE_EVT | CORE_IEN | CORE_FAULT | CORE_PC | QPRI | CHAIN_CFG
  | CHAIN_STATUS | CHAIN_TAG | CHAIN_STALL_CNT | CHAIN_LOCAL_CNT | HS_EXEC | BLOCK_TIME | DIGEST_LO | DIGEST_HI | QOCC | PKT_INDEX | PKT_DATA_LO
  | PKT_DATA_HI | PKT_SRC_LO | PKT_SRC_HI | PKT_LOAD | PKT_STATUS | PKT_CRC | STR_STATE | STR_LEFT | STR_REARM | STR_ARMS | STR_ACC | RING_LO
  | RING_HI | RING_STRIDE | SLOT_WDOG | SLOT_EVT | SLOT_IEN | SLOT_TAINT | SLOT_TIMEOUT_CNT | SLOT_POISON_CNT | SLOT_FAULT | RING_CUT | SNK_CTRL
  | SNK_STATUS | SNK_TIMING | SNK_PERIOD | SNK_COLOR | SNK_LBUF | SNK_EVT | SNK_IEN | SNK_FRAMES | SNK_BAD | SNK_OVF | SNK_SDP_DROP | INP_CTRL
  | INP_MAT | INP_OFS | INP_SUBST0 | INP_SUBST1 | INP_RING_BASE | INP_RING_CFG | INP_SLOT_STRIDE | INP_PLANE_STRIDE | INP_COUNT_BASE
  | INP_COUNT_STRIDE | INP_REC | INP_MAP_A | INP_MAP_B | INP_BYP | INP_EVT | INP_IEN | INP_MISSING | INP_OVR | MOT_CTRL | MOT_HOLD | MOT_REF_LO
  | MOT_REF_HI | MOT_REF_STRIDE | MOT_PYR_BASE | MOT_PYR_STRIDE | MOT_STATUS | MOT_EVT | MOT_IEN | MOT_REFS | MOT_DROPS | MOT_BW | CMP_COMMIT
  | CMP_STATUS | CMP_EVT | CMP_IEN | CMP_APPLY_SEQ | CMP_BG0 | CMP_BG1 | CMP_TKO_BG0 | CMP_TKO_BG1 | CMP_TKO_POS | SMAT_C | SMAT_POST0 | SMAT_POST1
  | UNDER_CNT | ER_BASE | ER_CFG | ER_SLOT_STRIDE | ER_PLANE_STRIDE | ER_COUNT | ER_CSTRIDE | ER_CSKEIN | LAY_CTRL | LAY_POS | LAY_SIZE | LAY_ADDR
  | LAY_CADDR | LAY_C2ADDR | LAY_STRIDE | LAY_CSTRIDE | LAY_RING | LAY_HITCH | LAY_HITCH_VAL | LUT_CTRL | LUT_STATUS | LUT_SEL | LUT_DATA | LUT_EVT
  | LUT_IEN | CV_CTRL | CV_STATUS | CV_SRC | CV_DST | CV_LOAD | CV_CRC | CV_EVT | CV_IEN | TMG_CTRL | TMG_H | TMG_HS | TMG_V | TMG_VS | TMG_PCLK
  | TMG_LOCK | TMG_VFPMIN | TMG_STATUS | TMG_ERR | TMG_EVT | TMG_IEN | SRC_CTRL | SRC_FMT | SRC_DSC | SRC_VSC | SRC_MAT | SRC_PRE0 | SRC_PRE1
  | SRC_POST0 | SRC_POST1 | SRC_STATUS | SRC_EVT | SRC_IEN | GRD_EVT | GRD_IEN | RB_CTRL | RB_STATUS | RB_CNT0 | RB_CNT1 | GRD_CFG | GRD_POS
  | GRD_SIZE | GRD_EXP | GRD_MEAS | GRD_CNT | PRT_CTRL | PRT_STATUS | PRT_MAC_LO | PRT_MAC_HI | PRT_PEER_LO | PRT_PEER_HI | PRT_LINK | PRT_EVT
  | PRT_IEN | PRT_TXF | PRT_RXF | PRT_FCS_ERR | PRT_RETX | PRT_NOBUF | PRT_OTHER | PRT_FI_CTRL | PRT_FI_SEL | PRT_FI_PARAM | PRT_FI_LIMIT
  | PRT_FI_COUNT | PLT_CTRL | PLT_STATUS | PLT_TXN_TMO | PLT_MC | PLT_BCAST | PLT_MGMT | PLT_EVT | PLT_IEN | PLT_E2E_ERR | PLT_RELAY | PLT_DISCARD
  | PLT_DMA_EVT | PLT_DMA_IEN | PLT_ROUTE | PLT_MCG | WIN_SEL | WIN_BASE_LO | WIN_BASE_HI | WIN_SIZE | WIN_PEERS | WIN_CTRL | WIN_STATUS
  | WIN_CLOSED_CNT | WIN_DENIED_CNT | WIN_OVERRUN_CNT | DMA_CTRL | DMA_LOCAL_LO | DMA_LOCAL_HI | DMA_TARGET | DMA_ROFS_LO | DMA_ROFS_HI | DMA_LEN
  | DMA_STATUS | DMA_DONE | DMA_MC | DMA_MC_ATT | DMA_MC_FAIL | DMA_SPL_SRC | DMA_SPL_SHAPE | DMA_SPL_STR | DMA_SPL_FILL | TIME_CTRL | TIME_STATUS
  | TIME_NOW_LO | TIME_NOW_HI | TIME_FRAC | TIME_US | TIME_STEP_LO | TIME_STEP_HI | TIME_RATE | TIME_INTEG | TIME_OFFSET | TIME_SERVO | TIME_LIMIT
  | TIME_GPTP | TIME_PORTS | TIME_CLKID_LO | TIME_CLKID_HI | TIME_EVT | TIME_IEN | TIME_STEPS | PTP_DELAY | PTP_NRR | PTP_LAT | PTP_ASYM | PTP_SYNCS
  | FLIP_BASE_LO | FLIP_BASE_HI | FLIP_NUM | FLIP_CFG | FLIP_INDEX_LO | FLIP_INDEX_HI | FLIP_ERR | ANN_CTRL | ANN_WATCH | ANN_TKO | ANN_LOST
  | ANN_BADIDX | ANN_STAT | EVT_CTRL | EVT_RESEND | EVT_STATUS | EVT_SEQ | EVT_SENT | EVT_RESENDS
  deriving DecidableEq, Repr, Inhabited

/-- One row of a register table: `base` is the byte offset from 0x0F_0000_0000 of instance (0, 0), `n0`, `s0`, `n1`, `s1` the
number and the spacing of the instances in each of two directions; `rw`, `w1c` and `w1s` are the masks of the bits whose
type is RW, W1C and W1S (R5), and `reset` is the value after power-on reset (R8).  Bits in none of the masks are RO, RC, WO
or RSV. -/
structure RegRow where
  base : Nat
  n0 : Nat
  s0 : Nat
  n1 : Nat
  s1 : Nat
  rw : Nat
  w1c : Nat
  w1s : Nat
  reset : Nat
  deriving DecidableEq, Repr

/-- The row of each register. (DESIGN CHOICE, log entries 3, 4 and 8.) -/
def RegId.row : RegId → RegRow
  | .FAB_CTRL => ⟨0x10000, 1, 4, 1, 4, 0xf, 0, 0, 8⟩
  | .FAB_STATUS => ⟨0x10004, 1, 4, 1, 4, 0, 0, 0, 1⟩
  | .BELAY_SLACK => ⟨0x10008, 1, 4, 1, 4, 0x7f7f7f7f, 0, 0, 0x18080410⟩
  | .BELAY_TIME => ⟨0x1000c, 1, 4, 1, 4, 0xfffffff, 0, 0, 0x1906414⟩
  | .BELAY_VLIM => ⟨0x10010, 1, 4, 1, 4, 0x3ffffff, 0, 0, 0xad4a26⟩
  | .BELAY_STATE => ⟨0x10014, 1, 4, 1, 4, 0, 0, 0, 0⟩
  | .BELAY_EVT => ⟨0x10018, 1, 4, 1, 4, 0, 0x3ff, 0, 0⟩
  | .BELAY_IEN => ⟨0x1001c, 1, 4, 1, 4, 0x3ff, 0, 0, 0⟩
  | .RAISE_COUNT => ⟨0x10020, 1, 4, 1, 4, 0, 0, 0, 0⟩
  | .LOWER_COUNT => ⟨0x10024, 1, 4, 1, 4, 0, 0, 0, 0⟩
  | .AT_MAX_COUNT => ⟨0x10028, 1, 4, 1, 4, 0, 0, 0, 0⟩
  | .REBAL_CFG => ⟨0x1002c, 1, 4, 1, 4, 0x3ff, 0, 0, 0x18⟩
  | .MON_CFG => ⟨0x10030, 1, 4, 1, 4, 0xff03ff, 0, 0, 0xa0064⟩
  | .CORE_EN => ⟨0x10034, 1, 4, 1, 4, 0, 0, 0, 0xffffffff⟩
  | .MON_DISAGREE => ⟨0x10038, 1, 4, 1, 4, 0, 0xffffffff, 0, 0⟩
  | .CORE_SPEED => ⟨0x10100, 32, 4, 1, 4, 0, 0, 0, 0⟩
  | .RPT_SEQ => ⟨0x10800, 2, 0x400, 1, 4, 0, 0, 0, 0⟩
  | .RPT_TIME_LO => ⟨0x10804, 2, 0x400, 1, 4, 0, 0, 0, 0⟩
  | .RPT_TIME_HI => ⟨0x10808, 2, 0x400, 1, 4, 0, 0, 0, 0⟩
  | .RPT_CFG => ⟨0x1080c, 2, 0x400, 1, 4, 0, 0, 0, 0⟩
  | .RPT_MIN => ⟨0x10810, 2, 0x400, 1, 4, 0, 0, 0, 0⟩
  | .RPT_MINPOS => ⟨0x10814, 2, 0x400, 1, 4, 0, 0, 0, 0⟩
  | .RPT_FORCED => ⟨0x10818, 2, 0x400, 1, 4, 0, 0, 0, 0⟩
  | .RPT_POISONED => ⟨0x1081c, 2, 0x400, 1, 4, 0, 0, 0, 0⟩
  | .RPT_LATE => ⟨0x10820, 2, 0x400, 1, 4, 0, 0, 0, 0⟩
  | .RPT_POLICY => ⟨0x10824, 2, 0x400, 1, 4, 0, 0, 0, 0⟩
  | .RPT_MISSING => ⟨0x10828, 2, 0x400, 1, 4, 0, 0, 0, 0⟩
  | .CUM_FORCED => ⟨0x10830, 2, 0x400, 1, 4, 0, 0, 0, 0⟩
  | .CUM_POISONED => ⟨0x10834, 2, 0x400, 1, 4, 0, 0, 0, 0⟩
  | .CUM_LATE => ⟨0x10838, 2, 0x400, 1, 4, 0, 0, 0, 0⟩
  | .CUM_POLICY => ⟨0x1083c, 2, 0x400, 1, 4, 0, 0, 0, 0⟩
  | .LIVE_SLACK => ⟨0x10840, 2, 0x400, 1, 4, 0, 0, 0, 0⟩
  | .CUM_CLEAR => ⟨0x10844, 2, 0x400, 1, 4, 0, 0, 0, 0⟩
  | .EFF_SLACK => ⟨0x10848, 2, 0x400, 1, 4, 0, 0, 0, 0⟩
  | .GEOM_LIMIT => ⟨0x1084c, 2, 0x400, 1, 4, 0, 0, 0, 0⟩
  | .STRIPE_SLACK => ⟨0x10880, 2, 0x400, 32, 4, 0, 0, 0, 0⟩
  | .STRIPE_GEOM => ⟨0x10900, 2, 0x400, 32, 4, 0, 0, 0, 0⟩
  | .STRIPE_SHADOW => ⟨0x10980, 2, 0x400, 32, 4, 0x1ff01ff, 0, 0, 0⟩
  | .STRIPE_PROPOSAL => ⟨0x10a00, 2, 0x400, 32, 4, 0, 0, 0, 0⟩
  | .STRIPE_RATE => ⟨0x10a80, 2, 0x400, 32, 4, 0, 0, 0, 0⟩
  | .CAL_CTRL => ⟨0x20000, 1, 4, 1, 4, 1, 0, 0, 1⟩
  | .CAL_CLAMP => ⟨0x20004, 1, 4, 1, 4, 0, 0xffffffff, 0, 0⟩
  | .CAL_FLIM_V => ⟨0x20010, 1, 4, 1, 4, 0, 0, 0, 0⟩
  | .CAL_FLIM_G => ⟨0x20014, 1, 4, 1, 4, 0, 0, 0, 0⟩
  | .CAL_FLIM_T => ⟨0x20018, 1, 4, 1, 4, 0, 0, 0, 0⟩
  | .CAL_FV => ⟨0x20100, 32, 4, 1, 4, 0, 0, 0, 0⟩
  | .CAL_FGT => ⟨0x20200, 32, 4, 1, 4, 0, 0, 0, 0⟩
  | .CAL_USER => ⟨0x20300, 32, 4, 1, 4, 0xfffffff, 0, 0, 0⟩
  | .CAL_EV => ⟨0x20400, 32, 4, 1, 4, 0, 0, 0, 0⟩
  | .CAL_EGT => ⟨0x20500, 32, 4, 1, 4, 0, 0, 0, 0⟩
  | .AVS_CTRL => ⟨0x30000, 1, 4, 1, 4, 0xf3f, 0, 0, 0x10⟩
  | .AVS_TARGET => ⟨0x30004, 1, 4, 1, 4, 0x3ff, 0, 0, 0x2ee⟩
  | .AVS_STATUS => ⟨0x30008, 1, 4, 1, 4, 0, 0, 0, 0⟩
  | .AVS_READ => ⟨0x3000c, 1, 4, 1, 4, 0, 0, 0, 0⟩
  | .AVS_ERRCNT => ⟨0x30010, 1, 4, 1, 4, 0, 0, 0, 0⟩
  | .AVS_POLL => ⟨0x30014, 1, 4, 1, 4, 0x3ff, 0, 0, 0x64⟩
  | .PMB_CTRL => ⟨0x30100, 1, 4, 1, 4, 0xf, 0, 0, 8⟩
  | .PMB_XFER => ⟨0x30104, 1, 4, 1, 4, 0xfff7f, 0, 0x80000000, 0⟩
  | .PMB_DATA => ⟨0x30108, 1, 4, 1, 4, 0xffffffff, 0, 0, 0⟩
  | .PMB_STATUS => ⟨0x3010c, 1, 4, 1, 4, 0, 0xf, 0, 0⟩
  | .STO_CTRL => ⟨0x40000, 1, 4, 1, 4, 0x1f, 0, 0, 0x1f⟩
  | .STO_STATUS => ⟨0x40004, 1, 4, 1, 4, 0, 0, 0, 0⟩
  | .STO_EVT => ⟨0x40008, 1, 4, 1, 4, 0, 0x11f1f1f, 0, 0⟩
  | .STO_IEN => ⟨0x4000c, 1, 4, 1, 4, 0x1ffffff, 0, 0, 0⟩
  | .STO_SCRUB_CFG => ⟨0x40010, 1, 4, 1, 4, 0xffff, 0, 0, 0x400⟩
  | .STO_UNC_ADDR_LO => ⟨0x40014, 1, 4, 1, 4, 0, 0, 0, 0⟩
  | .STO_UNC_ADDR_HI => ⟨0x40018, 1, 4, 1, 4, 0, 0x80000000, 0, 0⟩
  | .STO_CORR_ADDR_LO => ⟨0x4001c, 1, 4, 1, 4, 0, 0, 0, 0⟩
  | .STO_CORR_ADDR_HI => ⟨0x40020, 1, 4, 1, 4, 0, 0, 0, 0⟩
  | .STO_BAND => ⟨0x40040, 5, 4, 1, 4, 0xffff, 0, 0, 0⟩
  | .STO_GEOM => ⟨0x40060, 5, 4, 1, 4, 0, 0, 0, 0⟩
  | .STO_ECC_CORR => ⟨0x40080, 5, 4, 1, 4, 0, 0, 0, 0⟩
  | .STO_ECC_UNC => ⟨0x400a0, 5, 4, 1, 4, 0, 0, 0, 0⟩
  | .STO_SCRUB_PASS => ⟨0x400c0, 5, 4, 1, 4, 0, 0, 0, 0⟩
  | .STO_WATCH => ⟨0x400e0, 5, 4, 1, 4, 0, 0, 0, 0⟩
  | .STO_UTIL => ⟨0x40100, 5, 4, 1, 4, 0, 0, 0, 0⟩
  | .STO_WHEEL => ⟨0x40120, 5, 4, 1, 4, 0, 0, 0, 0⟩
  | .KNT_CTRL => ⟨0x50000, 1, 4, 1, 4, 0x10f, 0, 0, 0x103⟩
  | .KNT_STATUS => ⟨0x50004, 1, 4, 1, 4, 0, 0, 0, 0⟩
  | .KNT_EVT => ⟨0x50008, 1, 4, 1, 4, 0, 0x7f, 0, 0⟩
  | .KNT_IEN => ⟨0x5000c, 1, 4, 1, 4, 0x7f, 0, 0, 0⟩
  | .EPOCH_NUM => ⟨0x50010, 1, 4, 1, 4, 0, 0, 0, 0⟩
  | .EPOCH_CORES => ⟨0x50014, 1, 4, 1, 4, 0xffffffff, 0, 0, 0⟩
  | .EPOCH_READY => ⟨0x50018, 1, 4, 1, 4, 0, 0, 0, 0⟩
  | .EPOCH_STREAMS => ⟨0x5001c, 1, 4, 1, 4, 0, 0, 0, 0⟩
  | .EPOCH_PARTIAL_CNT => ⟨0x50020, 1, 4, 1, 4, 0, 0, 0, 0⟩
  | .EPOCH_STRAY => ⟨0x50024, 1, 4, 1, 4, 0, 0, 0, 0⟩
  | .KNT_SEL => ⟨0x50040, 1, 4, 1, 4, 0x3fff, 0, 0, 0⟩
  | .KNT_ENTRY => ⟨0x50080, 16, 4, 1, 4, 7, 0, 0, 0⟩
  | .BIND_SEL => ⟨0x50100, 1, 4, 1, 4, 0x1f, 0, 0, 0⟩
  | .BIND_KNOT => ⟨0x50104, 1, 4, 1, 4, 0x13fff, 0, 0, 0⟩
  | .BIND_TARGET => ⟨0x50108, 1, 4, 1, 4, 0x3f3f031f, 0, 0, 0x1000200⟩
  | .BIND_CORES => ⟨0x5010c, 1, 4, 1, 4, 0xffffffff, 0, 0, 0⟩
  | .BIND_GEOM => ⟨0x50110, 1, 4, 1, 4, 0x1ff01ff, 0, 0, 0⟩
  | .BIND_CTRL => ⟨0x50114, 1, 4, 1, 4, 0, 0, 1, 0⟩
  | .BIND_STATUS => ⟨0x50118, 1, 4, 1, 4, 0, 0, 0, 0⟩
  | .VER_CTRL => ⟨0x50120, 1, 4, 1, 4, 0x3fff, 0, 0x80000000, 0⟩
  | .VER_STATUS => ⟨0x50124, 1, 4, 1, 4, 0, 0, 0, 0⟩
  | .LSE_SEL => ⟨0x50140, 1, 4, 1, 4, 0xff, 0, 0, 0⟩
  | .LSE_ADDR_LO => ⟨0x50144, 1, 4, 1, 4, 0xfffffff8, 0, 0, 0⟩
  | .LSE_ADDR_HI => ⟨0x50148, 1, 4, 1, 4, 0x800000ff, 0, 0, 0⟩
  | .LSE_LAST => ⟨0x5014c, 1, 4, 1, 4, 0, 0, 0, 0⟩
  | .LSE_OWNER => ⟨0x50150, 1, 4, 1, 4, 0, 0, 0, 0⟩
  | .LSE_COUNT => ⟨0x50154, 1, 4, 1, 4, 0, 0, 0, 0⟩
  | .LIB_BASE_LO => ⟨0x60000, 1, 4, 1, 4, 0xfffff000, 0, 0, 0⟩
  | .LIB_BASE_HI => ⟨0x60004, 1, 4, 1, 4, 0xff, 0, 0, 1⟩
  | .LIB_SIZE => ⟨0x60008, 1, 4, 1, 4, 0xfff, 0, 0, 0⟩
  | .IMP_KNOT => ⟨0x60010, 1, 4, 1, 4, 0x3fff, 0, 0, 0⟩
  | .IMP_OFS => ⟨0x60014, 1, 4, 1, 4, 0xfffff, 0, 0, 0⟩
  | .IMP_LEN => ⟨0x60018, 1, 4, 1, 4, 0xffffffff, 0, 0, 0⟩
  | .IMP_CTRL => ⟨0x6001c, 1, 4, 1, 4, 1, 0, 0x80000000, 0⟩
  | .IMP_STATUS => ⟨0x60020, 1, 4, 1, 4, 0, 2, 0, 0⟩
  | .LIB_IMPORTS => ⟨0x60024, 1, 4, 1, 4, 0, 0, 0, 0⟩
  | .HYP_CTRL => ⟨0x70000, 1, 4, 1, 4, 1, 0, 0, 0⟩
  | .HYP_CFG => ⟨0x70004, 1, 4, 1, 4, 0x17, 0, 0, 0⟩
  | .HYP_TIMING => ⟨0x70008, 1, 4, 1, 4, 0xff0f0f, 0, 0, 0x280707⟩
  | .HYP_STATUS => ⟨0x7000c, 1, 4, 1, 4, 0, 4, 0, 0⟩
  | .HYP_CHERR => ⟨0x70010, 1, 4, 1, 4, 0, 0xffff, 0, 0⟩
  | .HYP_UTIL => ⟨0x70014, 1, 4, 1, 4, 0, 0, 0, 0⟩
  | .KEP_CTRL => ⟨0x80000, 1, 4, 1, 4, 0, 0, 0, 0⟩
  | .KEP_STATE => ⟨0x80004, 4, 4, 1, 4, 0, 0, 0, 0⟩
  | .KEP_FAULT => ⟨0x80020, 4, 4, 1, 4, 0, 0x80000000, 0, 0⟩
  | .KEP_PEVT => ⟨0x80040, 4, 4, 1, 4, 0, 0x7f, 0, 0⟩
  | .KEP_RING => ⟨0x80060, 1, 4, 1, 4, 0, 0, 0, 0⟩
  | .TICK_COUNT => ⟨0x80064, 1, 4, 1, 4, 0, 0, 0, 0⟩
  | .TICK_OVERRUN => ⟨0x80068, 4, 4, 1, 4, 0, 0, 0, 0⟩
  | .KEP_WDOG => ⟨0x80080, 4, 4, 1, 4, 0xff, 0, 0, 0⟩
  | .MBX_STATUS => ⟨0x80100, 1, 4, 1, 4, 0x7f0004, 0, 0, 0⟩
  | .MBX_CTRL => ⟨0x80104, 1, 4, 1, 4, 0, 0, 0, 0⟩
  | .MBX_EVT => ⟨0x80108, 1, 4, 1, 4, 0, 7, 0, 0⟩
  | .MBX_IEN => ⟨0x8010c, 1, 4, 1, 4, 7, 0, 0, 0⟩
  | .MBX_H2D => ⟨0x80140, 16, 4, 1, 4, 0, 0, 0, 0⟩
  | .MBX_D2H => ⟨0x80180, 16, 4, 1, 4, 0xffffffff, 0, 0, 0⟩
  | .IRQ_SOFT_LO => ⟨0x90000, 1, 4, 1, 4, 0, 0xffffffff, 0, 0⟩
  | .IRQ_SOFT_HI => ⟨0x90004, 1, 4, 1, 4, 0, 0xffffffff, 0, 0⟩
  | .IRQ_SOFTSET_LO => ⟨0x90008, 1, 4, 1, 4, 0, 0, 0, 0⟩
  | .IRQ_SOFTSET_HI => ⟨0x9000c, 1, 4, 1, 4, 0, 0, 0, 0⟩
  | .IRQ_CLAIM => ⟨0x90100, 5, 0x20, 1, 4, 0, 0, 0, 0⟩
  | .IRQ_WAIT => ⟨0x90104, 5, 0x20, 1, 4, 0, 0, 0, 0⟩
  | .IRQ_COMPLETE => ⟨0x90108, 5, 0x20, 1, 4, 0, 0, 0, 0⟩
  | .IRQ_THRESH => ⟨0x9010c, 5, 0x20, 1, 4, 7, 0, 0, 0⟩
  | .IRQ_MISCOUNT => ⟨0x90110, 5, 0x20, 1, 4, 0, 0, 0, 0⟩
  | .IRQ_CLAIMS => ⟨0x90114, 5, 0x20, 1, 4, 0, 0, 0, 0⟩
  | .IRQ_CFG => ⟨0x90400, 256, 4, 1, 4, 0x1f07, 0, 0, 0⟩
  | .IRQ_PCFG => ⟨0x90800, 4, 0x80, 32, 4, 7, 0, 0, 0⟩
  | .BOOT_STATUS => ⟨0xa0000, 1, 4, 1, 4, 0, 0, 0, 0xffff00⟩
  | .BOOT_GEN => ⟨0xa0004, 1, 4, 1, 4, 0, 0, 0, 0⟩
  | .BOOT_SVN => ⟨0xa0008, 1, 4, 1, 4, 0, 0, 0, 0⟩
  | .BOOT_NEXT => ⟨0xa000c, 1, 4, 1, 4, 3, 0, 0, 0⟩
  | .BOOT_EVT => ⟨0xa0010, 1, 4, 1, 4, 0, 0xf, 0, 0⟩
  | .BOOT_IEN => ⟨0xa0014, 1, 4, 1, 4, 0xf, 0, 0, 0⟩
  | .OTP_ADDR => ⟨0xa0020, 1, 4, 1, 4, 0x1ff, 0, 0, 0⟩
  | .OTP_DATA => ⟨0xa0024, 1, 4, 1, 4, 0xffffffff, 0, 0, 0⟩
  | .OTP_CMD => ⟨0xa0028, 1, 4, 1, 4, 3, 0, 0x80000000, 0⟩
  | .OTP_STATUS => ⟨0xa002c, 1, 4, 1, 4, 0, 2, 0, 0⟩
  | .SVN_ADV => ⟨0xa0030, 1, 4, 1, 4, 0x13ff, 0, 0x80000000, 0⟩
  | .OTP_SVN => ⟨0xa0034, 1, 4, 1, 4, 0, 0, 0, 0⟩
  | .XSPI_ADDR => ⟨0xa0040, 1, 4, 1, 4, 0xffffffff, 0, 0, 0⟩
  | .XSPI_CMD => ⟨0xa0044, 1, 4, 1, 4, 3, 0, 0x80000000, 0⟩
  | .XSPI_STATUS => ⟨0xa0048, 1, 4, 1, 4, 0, 2, 0, 0⟩
  | .ATT_SRC => ⟨0xa0060, 1, 4, 1, 4, 0xfffffff8, 0, 0, 0⟩
  | .ATT_DST => ⟨0xa0064, 1, 4, 1, 4, 0xfffffff8, 0, 0, 0⟩
  | .ATT_CTRL => ⟨0xa0068, 1, 4, 1, 4, 0x1fff0003, 0, 0x80000000, 0⟩
  | .ATT_STATUS => ⟨0xa006c, 1, 4, 1, 4, 0, 0, 0, 0⟩
  | .MEAS_SRC => ⟨0xa0070, 1, 4, 1, 4, 0xfffffff8, 0, 0, 0⟩
  | .MEAS_CTRL => ⟨0xa0074, 1, 4, 1, 4, 0, 0, 0x80000000, 0⟩
  | .XSPI_BUF => ⟨0xa0100, 64, 4, 1, 4, 0xffffffff, 0, 0, 0⟩
  | .BOOT_IDPUB => ⟨0xa0200, 24, 4, 1, 4, 0, 0, 0, 0⟩
  | .SYS_ID => ⟨0x0, 1, 4, 1, 4, 0, 0, 0, 0x5e009612⟩
  | .SYS_STRAPS => ⟨0x4, 1, 4, 1, 4, 0, 0, 0, 0⟩
  | .SYS_RST => ⟨0x8, 1, 4, 1, 4, 0, 0, 0, 0⟩
  | .SYS_CAUSE => ⟨0xc, 1, 4, 1, 4, 0, 0xf, 0, 1⟩
  | .SYS_WARMS => ⟨0x10, 1, 4, 1, 4, 0, 0, 0, 0⟩
  | .SYS_SCRATCH => ⟨0x14, 4, 4, 1, 4, 0xffffffff, 0, 0, 0⟩
  | .TST_CTRL => ⟨0xb0000, 1, 4, 1, 4, 7, 0, 0, 2⟩
  | .TST_STATUS => ⟨0xb0004, 1, 4, 1, 4, 0, 0, 0, 0⟩
  | .TST_EVT => ⟨0xb0008, 1, 4, 1, 4, 0, 0x3f, 0, 0⟩
  | .TST_IEN => ⟨0xb000c, 1, 4, 1, 4, 0x3f, 0, 0, 0⟩
  | .TST_AUDIT_MASK => ⟨0xb0010, 1, 4, 1, 4, 0xffffffff, 0, 0, 0xffffffff⟩
  | .TST_AUDIT_REQ => ⟨0xb0014, 1, 4, 1, 4, 0x11f, 0, 0x80000000, 0⟩
  | .TST_SAVE => ⟨0xb0018, 1, 4, 1, 4, 0x1ffff00, 0, 0, 0x1f40000⟩
  | .TST_AUDIT_LAST => ⟨0xb001c, 1, 4, 1, 4, 0, 0, 0, 0⟩
  | .TST_AUDIT_CNT => ⟨0xb0020, 1, 4, 1, 4, 0, 0, 0, 0⟩
  | .TST_DEFER_CNT => ⟨0xb0024, 1, 4, 1, 4, 0, 0, 0, 0⟩
  | .TST_SKIP_CNT => ⟨0xb0028, 1, 4, 1, 4, 0, 0, 0, 0⟩
  | .TST_SLICE => ⟨0xb002c, 1, 4, 1, 4, 0x7ff, 0, 0, 0x732⟩
  | .FLT_REC => ⟨0xb0040, 8, 4, 1, 4, 0, 0, 0, 0⟩
  | .FLT_POP => ⟨0xb0060, 1, 4, 1, 4, 0, 0, 0, 0⟩
  | .FLT_STATUS => ⟨0xb0064, 1, 4, 1, 4, 0, 0, 0, 0⟩
  | .FLT_LOST => ⟨0xb0068, 1, 4, 1, 4, 0, 0, 0, 0⟩
  | .FLT_CNT => ⟨0xb0080, 27, 4, 1, 4, 0, 0, 0, 0⟩
  | .TST_INJ_CTRL => ⟨0xb0100, 1, 4, 1, 4, 3, 0, 0x80000000, 0⟩
  | .TST_INJ_ADDR_LO => ⟨0xb0104, 1, 4, 1, 4, 0xfffffffc, 0, 0, 0⟩
  | .TST_INJ_ADDR_HI => ⟨0xb0108, 1, 4, 1, 4, 0xff, 0, 0, 0⟩
  | .TST_INJ_PARAM => ⟨0xb010c, 1, 4, 1, 4, 0x1f3f3f, 0, 0, 0⟩
  | .TST_INJ_DUR => ⟨0xb0110, 1, 4, 1, 4, 0xffff, 0, 0, 0x64⟩
  | .TST_INJ_CNT => ⟨0xb0114, 1, 4, 1, 4, 0, 0, 0, 0⟩
  | .CORE_CTRL => ⟨0x100000, 32, 0x10000, 1, 4, 0, 0, 0, 0⟩
  | .CORE_STATE => ⟨0x100004, 32, 0x10000, 1, 4, 0, 0, 0, 0⟩
  | .CORE_BIND => ⟨0x100008, 32, 0x10000, 1, 4, 0xfffbfff, 0, 0, 0x8000000⟩
  | .CORE_EVT => ⟨0x10000c, 32, 0x10000, 1, 4, 0, 0x3f, 0, 0⟩
  | .CORE_IEN => ⟨0x100010, 32, 0x10000, 1, 4, 0x3f, 0, 0, 0⟩
  | .CORE_FAULT => ⟨0x100014, 32, 0x10000, 1, 4, 0, 0x80000000, 0, 0⟩
  | .CORE_PC => ⟨0x100018, 32, 0x10000, 1, 4, 0, 0, 0, 0⟩
  | .QPRI => ⟨0x10001c, 32, 0x10000, 1, 4, 0xffffff, 0, 0, 0x924924⟩
  | .CHAIN_CFG => ⟨0x100020, 32, 0x10000, 1, 4, 0xf1f1f0f, 0, 0, 2⟩
  | .CHAIN_STATUS => ⟨0x100024, 32, 0x10000, 1, 4, 0, 0, 0, 0⟩
  | .CHAIN_TAG => ⟨0x100028, 32, 0x10000, 1, 4, 0, 0, 0, 0⟩
  | .CHAIN_STALL_CNT => ⟨0x10002c, 32, 0x10000, 1, 4, 0, 0, 0, 0⟩
  | .CHAIN_LOCAL_CNT => ⟨0x100030, 32, 0x10000, 1, 4, 0, 0, 0, 0⟩
  | .HS_EXEC => ⟨0x100034, 32, 0x10000, 1, 4, 0, 0, 0, 0⟩
  | .BLOCK_TIME => ⟨0x100038, 32, 0x10000, 1, 4, 0, 0, 0, 0⟩
  | .DIGEST_LO => ⟨0x100040, 32, 0x10000, 1, 4, 0, 0, 0, 0⟩
  | .DIGEST_HI => ⟨0x100044, 32, 0x10000, 1, 4, 0, 0, 0, 0⟩
  | .QOCC => ⟨0x100060, 32, 0x10000, 8, 4, 0, 0, 0, 0⟩
  | .PKT_INDEX => ⟨0x100400, 32, 0x10000, 1, 4, 0x1fff, 0, 0, 0⟩
  | .PKT_DATA_LO => ⟨0x100404, 32, 0x10000, 1, 4, 0, 0, 0, 0⟩
  | .PKT_DATA_HI => ⟨0x100408, 32, 0x10000, 1, 4, 0, 0, 0, 0⟩
  | .PKT_SRC_LO => ⟨0x10040c, 32, 0x10000, 1, 4, 0xfffffffc, 0, 0, 0⟩
  | .PKT_SRC_HI => ⟨0x100410, 32, 0x10000, 1, 4, 0xff, 0, 0, 0⟩
  | .PKT_LOAD => ⟨0x100414, 32, 0x10000, 1, 4, 0x3fff, 0, 0x80000000, 0⟩
  | .PKT_STATUS => ⟨0x100418, 32, 0x10000, 1, 4, 0, 0xe, 0, 0⟩
  | .PKT_CRC => ⟨0x10041c, 32, 0x10000, 1, 4, 0, 0, 0, 0xffffffff⟩
  | .STR_STATE => ⟨0x100800, 32, 0x10000, 16, 0x20, 0, 0, 0, 0⟩
  | .STR_LEFT => ⟨0x100804, 32, 0x10000, 16, 0x20, 0, 0, 0, 0⟩
  | .STR_REARM => ⟨0x100808, 32, 0x10000, 16, 0x20, 0, 0, 0, 0⟩
  | .STR_ARMS => ⟨0x10080c, 32, 0x10000, 16, 0x20, 0, 0, 0, 0⟩
  | .STR_ACC => ⟨0x100810, 32, 0x10000, 16, 0x20, 0, 0, 0, 0⟩
  | .RING_LO => ⟨0x100a00, 32, 0x10000, 16, 0x10, 0xfffffffc, 0, 0, 0⟩
  | .RING_HI => ⟨0x100a04, 32, 0x10000, 16, 0x10, 0x80003fff, 0, 0, 0⟩
  | .RING_STRIDE => ⟨0x100a08, 32, 0x10000, 16, 0x10, 0xffff, 0, 0, 0⟩
  | .SLOT_WDOG => ⟨0x100b00, 32, 0x10000, 1, 4, 0x3ff, 0, 0, 0x32⟩
  | .SLOT_EVT => ⟨0x100b04, 32, 0x10000, 1, 4, 0, 0xf, 0, 0⟩
  | .SLOT_IEN => ⟨0x100b08, 32, 0x10000, 1, 4, 0xf, 0, 0, 0⟩
  | .SLOT_TAINT => ⟨0x100b0c, 32, 0x10000, 1, 4, 0, 0, 0, 0⟩
  | .SLOT_TIMEOUT_CNT => ⟨0x100b10, 32, 0x10000, 1, 4, 0, 0, 0, 0⟩
  | .SLOT_POISON_CNT => ⟨0x100b14, 32, 0x10000, 1, 4, 0, 0, 0, 0⟩
  | .SLOT_FAULT => ⟨0x100b18, 32, 0x10000, 1, 4, 0, 0x80000000, 0, 0⟩
  | .RING_CUT => ⟨0x100b1c, 32, 0x10000, 1, 4, 0x7ff, 0, 0x80000000, 0⟩
  | .SNK_CTRL => ⟨0x300000, 2, 0x10000, 1, 4, 0x3f, 0, 0, 0x36⟩
  | .SNK_STATUS => ⟨0x300004, 2, 0x10000, 1, 4, 0, 0, 0, 0⟩
  | .SNK_TIMING => ⟨0x300008, 2, 0x10000, 1, 4, 0, 0, 0, 0⟩
  | .SNK_PERIOD => ⟨0x30000c, 2, 0x10000, 1, 4, 0, 0, 0, 0⟩
  | .SNK_COLOR => ⟨0x300010, 2, 0x10000, 1, 4, 0, 0, 0, 0⟩
  | .SNK_LBUF => ⟨0x300014, 2, 0x10000, 1, 4, 0xffff3f, 0, 0, 0x20⟩
  | .SNK_EVT => ⟨0x300018, 2, 0x10000, 1, 4, 0, 0x3f, 0, 0⟩
  | .SNK_IEN => ⟨0x30001c, 2, 0x10000, 1, 4, 0x3f, 0, 0, 0⟩
  | .SNK_FRAMES => ⟨0x300020, 2, 0x10000, 1, 4, 0, 0, 0, 0⟩
  | .SNK_BAD => ⟨0x300024, 2, 0x10000, 1, 4, 0, 0, 0, 0⟩
  | .SNK_OVF => ⟨0x300028, 2, 0x10000, 1, 4, 0, 0, 0, 0⟩
  | .SNK_SDP_DROP => ⟨0x30002c, 2, 0x10000, 1, 4, 0, 0, 0, 0⟩
  | .INP_CTRL => ⟨0x320000, 2, 0x100, 1, 4, 0x3f, 0, 0, 0⟩
  | .INP_MAT => ⟨0x320010, 2, 0x100, 9, 4, 0xffff, 0, 0, 0⟩
  | .INP_OFS => ⟨0x320040, 2, 0x100, 3, 4, 0x1fff1fff, 0, 0, 0⟩
  | .INP_SUBST0 => ⟨0x320050, 2, 0x100, 1, 4, 0xfff0fff, 0, 0, 0⟩
  | .INP_SUBST1 => ⟨0x320054, 2, 0x100, 1, 4, 0x80000fff, 0, 0, 0⟩
  | .INP_RING_BASE => ⟨0x320060, 2, 0x100, 1, 4, 0xffffff00, 0, 0, 0⟩
  | .INP_RING_CFG => ⟨0x320064, 2, 0x100, 1, 4, 0x3f3f, 0, 0, 0x100⟩
  | .INP_SLOT_STRIDE => ⟨0x320068, 2, 0x100, 1, 4, 0xffffff00, 0, 0, 0⟩
  | .INP_PLANE_STRIDE => ⟨0x32006c, 2, 0x100, 1, 4, 0xffffff00, 0, 0, 0⟩
  | .INP_COUNT_BASE => ⟨0x320070, 2, 0x100, 1, 4, 0xfffffffc, 0, 0, 0⟩
  | .INP_COUNT_STRIDE => ⟨0x320074, 2, 0x100, 1, 4, 0xffff, 0, 0, 8⟩
  | .INP_REC => ⟨0x320078, 2, 0x100, 1, 4, 0xffffffe0, 0, 0, 0⟩
  | .INP_MAP_A => ⟨0x32007c, 2, 0x100, 1, 4, 0xffffff00, 0, 0, 0⟩
  | .INP_MAP_B => ⟨0x320080, 2, 0x100, 1, 4, 0xffffff00, 0, 0, 0⟩
  | .INP_BYP => ⟨0x320084, 2, 0x100, 1, 4, 0xffff1f, 0, 0, 0x10⟩
  | .INP_EVT => ⟨0x320088, 2, 0x100, 1, 4, 0, 3, 0, 0⟩
  | .INP_IEN => ⟨0x32008c, 2, 0x100, 1, 4, 3, 0, 0, 0⟩
  | .INP_MISSING => ⟨0x320090, 2, 0x100, 1, 4, 0, 0, 0, 0⟩
  | .INP_OVR => ⟨0x320094, 2, 0x100, 1, 4, 0, 0, 0, 0⟩
  | .MOT_CTRL => ⟨0x330000, 2, 0x100, 1, 4, 0x1f0773, 0, 0, 0x410⟩
  | .MOT_HOLD => ⟨0x330004, 2, 0x100, 1, 4, 0x3ff, 0, 0, 0xfa⟩
  | .MOT_REF_LO => ⟨0x330008, 2, 0x100, 1, 4, 0xfffff000, 0, 0, 0⟩
  | .MOT_REF_HI => ⟨0x33000c, 2, 0x100, 1, 4, 0xff, 0, 0, 1⟩
  | .MOT_REF_STRIDE => ⟨0x330010, 2, 0x100, 1, 4, 0xfffff, 0, 0, 0⟩
  | .MOT_PYR_BASE => ⟨0x330014, 2, 0x100, 1, 4, 0xffffff00, 0, 0, 0⟩
  | .MOT_PYR_STRIDE => ⟨0x330018, 2, 0x100, 1, 4, 0xffffff00, 0, 0, 0⟩
  | .MOT_STATUS => ⟨0x33001c, 2, 0x100, 1, 4, 0, 0, 0, 0⟩
  | .MOT_EVT => ⟨0x330020, 2, 0x100, 1, 4, 0, 7, 0, 0⟩
  | .MOT_IEN => ⟨0x330024, 2, 0x100, 1, 4, 7, 0, 0, 0⟩
  | .MOT_REFS => ⟨0x330028, 2, 0x100, 1, 4, 0, 0, 0, 0⟩
  | .MOT_DROPS => ⟨0x33002c, 2, 0x100, 1, 4, 0, 0, 0, 0⟩
  | .MOT_BW => ⟨0x330030, 2, 0x100, 1, 4, 0, 0, 0, 0⟩
  | .CMP_COMMIT => ⟨0x340000, 1, 4, 1, 4, 0x11fff, 0, 0x80000000, 0⟩
  | .CMP_STATUS => ⟨0x340004, 1, 4, 1, 4, 0, 0, 0, 0⟩
  | .CMP_EVT => ⟨0x340008, 1, 4, 1, 4, 0, 0x7f, 0, 0⟩
  | .CMP_IEN => ⟨0x34000c, 1, 4, 1, 4, 0x7f, 0, 0, 0⟩
  | .CMP_APPLY_SEQ => ⟨0x340010, 1, 4, 1, 4, 0, 0, 0, 0⟩
  | .CMP_BG0 => ⟨0x340014, 1, 4, 1, 4, 0xfff0fff, 0, 0, 0⟩
  | .CMP_BG1 => ⟨0x340018, 1, 4, 1, 4, 0x10fff, 0, 0, 0⟩
  | .CMP_TKO_BG0 => ⟨0x34001c, 1, 4, 1, 4, 0xfff0fff, 0, 0, 0⟩
  | .CMP_TKO_BG1 => ⟨0x340020, 1, 4, 1, 4, 0xfff, 0, 0, 0⟩
  | .CMP_TKO_POS => ⟨0x340024, 1, 4, 1, 4, 0x1fff1fff, 0, 0, 0⟩
  | .SMAT_C => ⟨0x340040, 2, 0x20, 5, 4, 0xffffffff, 0, 0, 0⟩
  | .SMAT_POST0 => ⟨0x340054, 2, 0x20, 1, 4, 0x1fff1fff, 0, 0, 0⟩
  | .SMAT_POST1 => ⟨0x340058, 2, 0x20, 1, 4, 0x1fff, 0, 0, 0⟩
  | .UNDER_CNT => ⟨0x340080, 8, 4, 1, 4, 0, 0, 0, 0⟩
  | .ER_BASE => ⟨0x3400a0, 2, 0x20, 1, 4, 0xffff, 0, 0, 0⟩
  | .ER_CFG => ⟨0x3400a4, 2, 0x20, 1, 4, 0x3f, 0, 0, 0⟩
  | .ER_SLOT_STRIDE => ⟨0x3400a8, 2, 0x20, 1, 4, 0xffff, 0, 0, 0⟩
  | .ER_PLANE_STRIDE => ⟨0x3400ac, 2, 0x20, 1, 4, 0xffff, 0, 0, 0⟩
  | .ER_COUNT => ⟨0x3400b0, 2, 0x20, 1, 4, 0xfffffc, 0, 0, 0⟩
  | .ER_CSTRIDE => ⟨0x3400b4, 2, 0x20, 1, 4, 0xffff, 0, 0, 8⟩
  | .ER_CSKEIN => ⟨0x3400b8, 2, 0x20, 1, 4, 0xfffffc, 0, 0, 0⟩
  | .LAY_CTRL => ⟨0x340100, 8, 0x40, 1, 4, 0xff03ffff, 0, 0, 0xff000000⟩
  | .LAY_POS => ⟨0x340104, 8, 0x40, 1, 4, 0x1fff1fff, 0, 0, 0⟩
  | .LAY_SIZE => ⟨0x340108, 8, 0x40, 1, 4, 0x1fff1fff, 0, 0, 0⟩
  | .LAY_ADDR => ⟨0x34010c, 8, 0x40, 1, 4, 0xffffffff, 0, 0, 0⟩
  | .LAY_CADDR => ⟨0x340110, 8, 0x40, 1, 4, 0xffffffff, 0, 0, 0⟩
  | .LAY_C2ADDR => ⟨0x340114, 8, 0x40, 1, 4, 0xffffffff, 0, 0, 0⟩
  | .LAY_STRIDE => ⟨0x340118, 8, 0x40, 1, 4, 0xfffff, 0, 0, 0⟩
  | .LAY_CSTRIDE => ⟨0x34011c, 8, 0x40, 1, 4, 0xfffff, 0, 0, 0⟩
  | .LAY_RING => ⟨0x340120, 8, 0x40, 1, 4, 0x1fffff, 0, 0, 0x80000⟩
  | .LAY_HITCH => ⟨0x340124, 8, 0x40, 1, 4, 0xfffffc, 0, 0, 0⟩
  | .LAY_HITCH_VAL => ⟨0x340128, 8, 0x40, 1, 4, 0xffffffff, 0, 0, 0⟩
  | .LUT_CTRL => ⟨0x350000, 1, 4, 1, 4, 0x77, 0, 0, 0⟩
  | .LUT_STATUS => ⟨0x350004, 1, 4, 1, 4, 0, 0, 0, 0⟩
  | .LUT_SEL => ⟨0x350008, 1, 4, 1, 4, 0x7ff001f, 0, 0, 0⟩
  | .LUT_DATA => ⟨0x35000c, 1, 4, 1, 4, 0x1fff, 0, 0, 0⟩
  | .LUT_EVT => ⟨0x350010, 1, 4, 1, 4, 0, 1, 0, 0⟩
  | .LUT_IEN => ⟨0x350014, 1, 4, 1, 4, 1, 0, 0, 0⟩
  | .CV_CTRL => ⟨0x360000, 1, 4, 1, 4, 1, 0, 0, 0⟩
  | .CV_STATUS => ⟨0x360004, 1, 4, 1, 4, 0, 0, 0, 0⟩
  | .CV_SRC => ⟨0x360008, 1, 4, 1, 4, 0xffffffff, 0, 0, 0⟩
  | .CV_DST => ⟨0x36000c, 1, 4, 1, 4, 0x3ffff, 0, 0, 0⟩
  | .CV_LOAD => ⟨0x360010, 1, 4, 1, 4, 0x7ffff, 0, 0x80000000, 0⟩
  | .CV_CRC => ⟨0x360014, 1, 4, 1, 4, 0, 0, 0, 0⟩
  | .CV_EVT => ⟨0x360018, 1, 4, 1, 4, 0, 3, 0, 0⟩
  | .CV_IEN => ⟨0x36001c, 1, 4, 1, 4, 3, 0, 0, 0⟩
  | .TMG_CTRL => ⟨0x370000, 2, 0x40, 1, 4, 0x3f, 0, 0x80000000, 0⟩
  | .TMG_H => ⟨0x370004, 2, 0x40, 1, 4, 0x1fff1fff, 0, 0, 0x1e501e00⟩
  | .TMG_HS => ⟨0x370008, 2, 0x40, 1, 4, 0x1fff1fff, 0, 0, 0x200008⟩
  | .TMG_V => ⟨0x37000c, 2, 0x40, 1, 4, 0x1fff1fff, 0, 0, 0x119410e0⟩
  | .TMG_VS => ⟨0x370010, 2, 0x40, 1, 4, 0x1fff1fff, 0, 0, 0x800a6⟩
  | .TMG_PCLK => ⟨0x370014, 2, 0x40, 1, 4, 0x7fffff, 0, 0, 0x3ff0c0⟩
  | .TMG_LOCK => ⟨0x370018, 2, 0x40, 1, 4, 0x3ffffff, 0, 0, 0xc82008⟩
  | .TMG_VFPMIN => ⟨0x37001c, 2, 0x40, 1, 4, 0x1fff, 0, 0, 0x40⟩
  | .TMG_STATUS => ⟨0x370020, 2, 0x40, 1, 4, 0, 0, 0, 0⟩
  | .TMG_ERR => ⟨0x370024, 2, 0x40, 1, 4, 0, 0, 0, 0⟩
  | .TMG_EVT => ⟨0x370028, 2, 0x40, 1, 4, 0, 0xf, 0, 0⟩
  | .TMG_IEN => ⟨0x37002c, 2, 0x40, 1, 4, 0xf, 0, 0, 0⟩
  | .SRC_CTRL => ⟨0x380000, 2, 0x10000, 1, 4, 0xdf, 0, 0, 0x16⟩
  | .SRC_FMT => ⟨0x380004, 2, 0x10000, 1, 4, 0x3f, 0, 0, 0x14⟩
  | .SRC_DSC => ⟨0x380008, 2, 0x10000, 1, 4, 0x11f3ff1, 0, 0, 0x1080800⟩
  | .SRC_VSC => ⟨0x38000c, 2, 0x10000, 1, 4, 0xffffff, 0, 0, 0⟩
  | .SRC_MAT => ⟨0x380010, 2, 0x10000, 5, 4, 0xffffffff, 0, 0, 0⟩
  | .SRC_PRE0 => ⟨0x380024, 2, 0x10000, 1, 4, 0x1fff1fff, 0, 0, 0⟩
  | .SRC_PRE1 => ⟨0x380028, 2, 0x10000, 1, 4, 0x1fff, 0, 0, 0⟩
  | .SRC_POST0 => ⟨0x38002c, 2, 0x10000, 1, 4, 0x1fff1fff, 0, 0, 0⟩
  | .SRC_POST1 => ⟨0x380030, 2, 0x10000, 1, 4, 0x1fff, 0, 0, 0⟩
  | .SRC_STATUS => ⟨0x380034, 2, 0x10000, 1, 4, 0, 0, 0, 0⟩
  | .SRC_EVT => ⟨0x380038, 2, 0x10000, 1, 4, 0, 7, 0, 0⟩
  | .SRC_IEN => ⟨0x38003c, 2, 0x10000, 1, 4, 7, 0, 0, 0⟩
  | .GRD_EVT => ⟨0x3a0000, 1, 4, 1, 4, 0, 0x3ffff, 0, 0⟩
  | .GRD_IEN => ⟨0x3a0004, 1, 4, 1, 4, 0x3ffff, 0, 0, 0⟩
  | .RB_CTRL => ⟨0x3a0008, 1, 4, 1, 4, 3, 0, 0, 0⟩
  | .RB_STATUS => ⟨0x3a000c, 1, 4, 1, 4, 0, 0, 0, 0⟩
  | .RB_CNT0 => ⟨0x3a0010, 1, 4, 1, 4, 0, 0, 0, 0⟩
  | .RB_CNT1 => ⟨0x3a0014, 1, 4, 1, 4, 0, 0, 0, 0⟩
  | .GRD_CFG => ⟨0x3a0100, 16, 0x20, 1, 4, 3, 0, 4, 0⟩
  | .GRD_POS => ⟨0x3a0104, 16, 0x20, 1, 4, 0x1fff1fff, 0, 0, 0⟩
  | .GRD_SIZE => ⟨0x3a0108, 16, 0x20, 1, 4, 0x1fff1fff, 0, 0, 0⟩
  | .GRD_EXP => ⟨0x3a010c, 16, 0x20, 1, 4, 0xffffffff, 0, 0, 0⟩
  | .GRD_MEAS => ⟨0x3a0110, 16, 0x20, 1, 4, 0, 0, 0, 0⟩
  | .GRD_CNT => ⟨0x3a0114, 16, 0x20, 1, 4, 0, 0, 0, 0⟩
  | .PRT_CTRL => ⟨0x400000, 4, 0x10000, 1, 4, 7, 0, 0, 6⟩
  | .PRT_STATUS => ⟨0x400004, 4, 0x10000, 1, 4, 0, 0, 0, 0⟩
  | .PRT_MAC_LO => ⟨0x400008, 4, 0x10000, 1, 4, 0xffffffff, 0, 0, 0⟩
  | .PRT_MAC_HI => ⟨0x40000c, 4, 0x10000, 1, 4, 0xffff, 0, 0, 0⟩
  | .PRT_PEER_LO => ⟨0x400010, 4, 0x10000, 1, 4, 0xffffffff, 0, 0, 0xffffffff⟩
  | .PRT_PEER_HI => ⟨0x400014, 4, 0x10000, 1, 4, 0xffff, 0, 0, 0xffff⟩
  | .PRT_LINK => ⟨0x400018, 4, 0x10000, 1, 4, 0xff1f03ff, 0, 0, 0x40100014⟩
  | .PRT_EVT => ⟨0x40001c, 4, 0x10000, 1, 4, 0, 0xf, 0, 0⟩
  | .PRT_IEN => ⟨0x400020, 4, 0x10000, 1, 4, 0xf, 0, 0, 0⟩
  | .PRT_TXF => ⟨0x400024, 4, 0x10000, 1, 4, 0, 0, 0, 0⟩
  | .PRT_RXF => ⟨0x400028, 4, 0x10000, 1, 4, 0, 0, 0, 0⟩
  | .PRT_FCS_ERR => ⟨0x40002c, 4, 0x10000, 1, 4, 0, 0, 0, 0⟩
  | .PRT_RETX => ⟨0x400030, 4, 0x10000, 1, 4, 0, 0, 0, 0⟩
  | .PRT_NOBUF => ⟨0x400034, 4, 0x10000, 1, 4, 0, 0, 0, 0⟩
  | .PRT_OTHER => ⟨0x400038, 4, 0x10000, 1, 4, 0, 0, 0, 0⟩
  | .PRT_FI_CTRL => ⟨0x400040, 4, 0x10000, 1, 4, 0x7f, 0, 0, 0⟩
  | .PRT_FI_SEL => ⟨0x400044, 4, 0x10000, 1, 4, 0xffffffff, 0, 0, 0x20001⟩
  | .PRT_FI_PARAM => ⟨0x400048, 4, 0x10000, 1, 4, 0x703ff, 0, 0, 0x10001⟩
  | .PRT_FI_LIMIT => ⟨0x40004c, 4, 0x10000, 1, 4, 0xffffffff, 0, 0, 0⟩
  | .PRT_FI_COUNT => ⟨0x400050, 4, 0x10000, 1, 4, 0, 0, 0, 0⟩
  | .PLT_CTRL => ⟨0x440000, 1, 4, 1, 4, 0xffff0001, 0, 0, 0x88b50000⟩
  | .PLT_STATUS => ⟨0x440004, 1, 4, 1, 4, 0, 0, 0, 0⟩
  | .PLT_TXN_TMO => ⟨0x440008, 1, 4, 1, 4, 0xffff, 0, 0, 0x3e8⟩
  | .PLT_MC => ⟨0x44000c, 1, 4, 1, 4, 0xfffff, 0, 0, 0x800c8⟩
  | .PLT_BCAST => ⟨0x440010, 1, 4, 1, 4, 0xf, 0, 0, 0⟩
  | .PLT_MGMT => ⟨0x440014, 1, 4, 1, 4, 0x1fff, 0, 0, 0x1000⟩
  | .PLT_EVT => ⟨0x440018, 1, 4, 1, 4, 0, 0x3f, 0, 0⟩
  | .PLT_IEN => ⟨0x44001c, 1, 4, 1, 4, 0x3f, 0, 0, 0⟩
  | .PLT_E2E_ERR => ⟨0x440020, 1, 4, 1, 4, 0, 0, 0, 0⟩
  | .PLT_RELAY => ⟨0x440024, 1, 4, 1, 4, 0, 0, 0, 0⟩
  | .PLT_DISCARD => ⟨0x440028, 1, 4, 1, 4, 0, 0, 0, 0⟩
  | .PLT_DMA_EVT => ⟨0x44002c, 1, 4, 1, 4, 0, 0xffffffff, 0, 0⟩
  | .PLT_DMA_IEN => ⟨0x440030, 1, 4, 1, 4, 0xffffffff, 0, 0, 0⟩
  | .PLT_ROUTE => ⟨0x440040, 13, 4, 1, 4, 0x80000003, 0, 0, 0⟩
  | .PLT_MCG => ⟨0x440080, 16, 4, 1, 4, 0x1f, 0, 0, 0⟩
  | .WIN_SEL => ⟨0x440100, 1, 4, 1, 4, 0xff, 0, 0, 0⟩
  | .WIN_BASE_LO => ⟨0x440104, 1, 4, 1, 4, 0xfffff000, 0, 0, 0⟩
  | .WIN_BASE_HI => ⟨0x440108, 1, 4, 1, 4, 0xff, 0, 0, 0⟩
  | .WIN_SIZE => ⟨0x44010c, 1, 4, 1, 4, 0xfffff, 0, 0, 0⟩
  | .WIN_PEERS => ⟨0x440110, 1, 4, 1, 4, 0x71fff, 0, 0, 0⟩
  | .WIN_CTRL => ⟨0x440114, 1, 4, 1, 4, 0, 0, 0, 0⟩
  | .WIN_STATUS => ⟨0x440118, 1, 4, 1, 4, 0, 0, 0, 0⟩
  | .WIN_CLOSED_CNT => ⟨0x44011c, 1, 4, 1, 4, 0, 0, 0, 0⟩
  | .WIN_DENIED_CNT => ⟨0x440120, 1, 4, 1, 4, 0, 0, 0, 0⟩
  | .WIN_OVERRUN_CNT => ⟨0x440124, 1, 4, 1, 4, 0, 0, 0, 0⟩
  | .DMA_CTRL => ⟨0x441000, 32, 0x40, 1, 4, 3, 0, 0x80000000, 0⟩
  | .DMA_LOCAL_LO => ⟨0x441004, 32, 0x40, 1, 4, 0xfffffffc, 0, 0, 0⟩
  | .DMA_LOCAL_HI => ⟨0x441008, 32, 0x40, 1, 4, 0xff, 0, 0, 0⟩
  | .DMA_TARGET => ⟨0x44100c, 32, 0x40, 1, 4, 0xffffff1f, 0, 0, 0⟩
  | .DMA_ROFS_LO => ⟨0x441010, 32, 0x40, 1, 4, 0xfffffffc, 0, 0, 0⟩
  | .DMA_ROFS_HI => ⟨0x441014, 32, 0x40, 1, 4, 0xff, 0, 0, 0⟩
  | .DMA_LEN => ⟨0x441018, 32, 0x40, 1, 4, 0xffffffff, 0, 0, 0⟩
  | .DMA_STATUS => ⟨0x44101c, 32, 0x40, 1, 4, 0, 0, 0, 0⟩
  | .DMA_DONE => ⟨0x441020, 32, 0x40, 1, 4, 0, 0, 0, 0⟩
  | .DMA_MC => ⟨0x441024, 32, 0x40, 1, 4, 0xfff000f, 0, 0, 0⟩
  | .DMA_MC_ATT => ⟨0x441028, 32, 0x40, 1, 4, 0, 0, 0, 0⟩
  | .DMA_MC_FAIL => ⟨0x44102c, 32, 0x40, 1, 4, 0, 0, 0, 0⟩
  | .DMA_SPL_SRC => ⟨0x441030, 32, 0x40, 1, 4, 0xff0f1f, 0, 0, 0⟩
  | .DMA_SPL_SHAPE => ⟨0x441034, 32, 0x40, 1, 4, 0x3f3fffff, 0, 0, 0x1000000⟩
  | .DMA_SPL_STR => ⟨0x441038, 32, 0x40, 1, 4, 0xffffffff, 0, 0, 0⟩
  | .DMA_SPL_FILL => ⟨0x44103c, 32, 0x40, 1, 4, 0xfffffff8, 0, 0, 0⟩
  | .TIME_CTRL => ⟨0x450000, 1, 4, 1, 4, 0x1f, 0, 0, 8⟩
  | .TIME_STATUS => ⟨0x450004, 1, 4, 1, 4, 0, 0, 0, 0⟩
  | .TIME_NOW_LO => ⟨0x450008, 1, 4, 1, 4, 0, 0, 0, 0⟩
  | .TIME_NOW_HI => ⟨0x45000c, 1, 4, 1, 4, 0, 0, 0, 0⟩
  | .TIME_FRAC => ⟨0x450010, 1, 4, 1, 4, 0, 0, 0, 0⟩
  | .TIME_US => ⟨0x450014, 1, 4, 1, 4, 0, 0, 0, 0⟩
  | .TIME_STEP_LO => ⟨0x450018, 1, 4, 1, 4, 0xffffffff, 0, 0, 0⟩
  | .TIME_STEP_HI => ⟨0x45001c, 1, 4, 1, 4, 0, 0, 0, 0⟩
  | .TIME_RATE => ⟨0x450020, 1, 4, 1, 4, 0xffffffff, 0, 0, 0⟩
  | .TIME_INTEG => ⟨0x450024, 1, 4, 1, 4, 0, 0, 0, 0⟩
  | .TIME_OFFSET => ⟨0x450028, 1, 4, 1, 4, 0, 0, 0, 0⟩
  | .TIME_SERVO => ⟨0x45002c, 1, 4, 1, 4, 0xfffffff, 0, 0, 0x8324db3⟩
  | .TIME_LIMIT => ⟨0x450030, 1, 4, 1, 4, 0x3ff03ff, 0, 0, 0x6400fa⟩
  | .TIME_GPTP => ⟨0x450034, 1, 4, 1, 4, 0xfff, 0, 0, 0x30d⟩
  | .TIME_PORTS => ⟨0x450038, 1, 4, 1, 4, 0xff, 0, 0, 0⟩
  | .TIME_CLKID_LO => ⟨0x45003c, 1, 4, 1, 4, 0xffffffff, 0, 0, 0⟩
  | .TIME_CLKID_HI => ⟨0x450040, 1, 4, 1, 4, 0xffffffff, 0, 0, 0⟩
  | .TIME_EVT => ⟨0x450044, 1, 4, 1, 4, 0, 0xff, 0, 0⟩
  | .TIME_IEN => ⟨0x450048, 1, 4, 1, 4, 0xff, 0, 0, 0⟩
  | .TIME_STEPS => ⟨0x45004c, 1, 4, 1, 4, 0, 0, 0, 0⟩
  | .PTP_DELAY => ⟨0x450080, 4, 0x10, 1, 4, 0, 0, 0, 0⟩
  | .PTP_NRR => ⟨0x450084, 4, 0x10, 1, 4, 0, 0, 0, 0⟩
  | .PTP_LAT => ⟨0x450088, 4, 0x10, 1, 4, 0xffffffff, 0, 0, 0⟩
  | .PTP_ASYM => ⟨0x45008c, 4, 0x10, 1, 4, 0xffff, 0, 0, 0⟩
  | .PTP_SYNCS => ⟨0x4500c0, 4, 4, 1, 4, 0, 0, 0, 0⟩
  | .FLIP_BASE_LO => ⟨0x450100, 1, 4, 1, 4, 0xffffffff, 0, 0, 0⟩
  | .FLIP_BASE_HI => ⟨0x450104, 1, 4, 1, 4, 0xffffffff, 0, 0, 0⟩
  | .FLIP_NUM => ⟨0x450108, 1, 4, 1, 4, 0xffffffff, 0, 0, 0x17d7840⟩
  | .FLIP_CFG => ⟨0x45010c, 1, 4, 1, 4, 0xfffffff, 0, 0, 0x7d00a03⟩
  | .FLIP_INDEX_LO => ⟨0x450110, 1, 4, 1, 4, 0, 0, 0, 0⟩
  | .FLIP_INDEX_HI => ⟨0x450114, 1, 4, 1, 4, 0, 0, 0, 0⟩
  | .FLIP_ERR => ⟨0x450118, 2, 4, 1, 4, 0, 0, 0, 0⟩
  | .ANN_CTRL => ⟨0x450140, 1, 4, 1, 4, 0x3ff00f3, 0, 0, 0x3e80030⟩
  | .ANN_WATCH => ⟨0x450144, 1, 4, 1, 4, 0xfff, 0, 0, 0⟩
  | .ANN_TKO => ⟨0x450148, 1, 4, 1, 4, 0x8000000f, 0, 0, 0⟩
  | .ANN_LOST => ⟨0x45014c, 1, 4, 1, 4, 0, 0xfff, 0, 0⟩
  | .ANN_BADIDX => ⟨0x450150, 1, 4, 1, 4, 0, 0, 0, 0⟩
  | .ANN_STAT => ⟨0x450180, 12, 4, 1, 4, 0, 0, 0, 0⟩
  | .EVT_CTRL => ⟨0x460000, 1, 4, 1, 4, 0xf01, 0, 0, 0x800⟩
  | .EVT_RESEND => ⟨0x460004, 1, 4, 1, 4, 0xffff, 0, 0, 0x2710⟩
  | .EVT_STATUS => ⟨0x460008, 1, 4, 1, 4, 0, 0, 0, 0⟩
  | .EVT_SEQ => ⟨0x46000c, 1, 4, 1, 4, 0, 0, 0, 0⟩
  | .EVT_SENT => ⟨0x460010, 1, 4, 1, 4, 0, 0, 0, 0⟩
  | .EVT_RESENDS => ⟨0x460014, 1, 4, 1, 4, 0, 0, 0, 0⟩

/-! The registers of each 64 KB block of the register range, by the block's number. -/

def regBlock00 : List RegId :=
  [.SYS_ID, .SYS_STRAPS, .SYS_RST, .SYS_CAUSE, .SYS_WARMS, .SYS_SCRATCH]

def regBlock01 : List RegId :=
  [.FAB_CTRL, .FAB_STATUS, .BELAY_SLACK, .BELAY_TIME, .BELAY_VLIM, .BELAY_STATE, .BELAY_EVT, .BELAY_IEN, .RAISE_COUNT, .LOWER_COUNT, 
   .AT_MAX_COUNT, .REBAL_CFG, .MON_CFG, .CORE_EN, .MON_DISAGREE, .CORE_SPEED, .RPT_SEQ, .RPT_TIME_LO, .RPT_TIME_HI, .RPT_CFG, 
   .RPT_MIN, .RPT_MINPOS, .RPT_FORCED, .RPT_POISONED, .RPT_LATE, .RPT_POLICY, .RPT_MISSING, .CUM_FORCED, .CUM_POISONED, .CUM_LATE, 
   .CUM_POLICY, .LIVE_SLACK, .CUM_CLEAR, .EFF_SLACK, .GEOM_LIMIT, .STRIPE_SLACK, .STRIPE_GEOM, .STRIPE_SHADOW, .STRIPE_PROPOSAL, 
   .STRIPE_RATE]

def regBlock02 : List RegId :=
  [.CAL_CTRL, .CAL_CLAMP, .CAL_FLIM_V, .CAL_FLIM_G, .CAL_FLIM_T, .CAL_FV, .CAL_FGT, .CAL_USER, .CAL_EV, .CAL_EGT]

def regBlock03 : List RegId :=
  [.AVS_CTRL, .AVS_TARGET, .AVS_STATUS, .AVS_READ, .AVS_ERRCNT, .AVS_POLL, .PMB_CTRL, .PMB_XFER, .PMB_DATA, .PMB_STATUS]

def regBlock04 : List RegId :=
  [.STO_CTRL, .STO_STATUS, .STO_EVT, .STO_IEN, .STO_SCRUB_CFG, .STO_UNC_ADDR_LO, .STO_UNC_ADDR_HI, .STO_CORR_ADDR_LO, 
   .STO_CORR_ADDR_HI, .STO_BAND, .STO_GEOM, .STO_ECC_CORR, .STO_ECC_UNC, .STO_SCRUB_PASS, .STO_WATCH, .STO_UTIL, .STO_WHEEL]

def regBlock05 : List RegId :=
  [.KNT_CTRL, .KNT_STATUS, .KNT_EVT, .KNT_IEN, .EPOCH_NUM, .EPOCH_CORES, .EPOCH_READY, .EPOCH_STREAMS, .EPOCH_PARTIAL_CNT, 
   .EPOCH_STRAY, .KNT_SEL, .KNT_ENTRY, .BIND_SEL, .BIND_KNOT, .BIND_TARGET, .BIND_CORES, .BIND_GEOM, .BIND_CTRL, .BIND_STATUS, 
   .VER_CTRL, .VER_STATUS, .LSE_SEL, .LSE_ADDR_LO, .LSE_ADDR_HI, .LSE_LAST, .LSE_OWNER, .LSE_COUNT]

def regBlock06 : List RegId :=
  [.LIB_BASE_LO, .LIB_BASE_HI, .LIB_SIZE, .IMP_KNOT, .IMP_OFS, .IMP_LEN, .IMP_CTRL, .IMP_STATUS, .LIB_IMPORTS]

def regBlock07 : List RegId :=
  [.HYP_CTRL, .HYP_CFG, .HYP_TIMING, .HYP_STATUS, .HYP_CHERR, .HYP_UTIL]

def regBlock08 : List RegId :=
  [.KEP_CTRL, .KEP_STATE, .KEP_FAULT, .KEP_PEVT, .KEP_RING, .TICK_COUNT, .TICK_OVERRUN, .KEP_WDOG, .MBX_STATUS, .MBX_CTRL, .MBX_EVT, 
   .MBX_IEN, .MBX_H2D, .MBX_D2H]

def regBlock09 : List RegId :=
  [.IRQ_SOFT_LO, .IRQ_SOFT_HI, .IRQ_SOFTSET_LO, .IRQ_SOFTSET_HI, .IRQ_CLAIM, .IRQ_WAIT, .IRQ_COMPLETE, .IRQ_THRESH, .IRQ_MISCOUNT, 
   .IRQ_CLAIMS, .IRQ_CFG, .IRQ_PCFG]

def regBlock0A : List RegId :=
  [.BOOT_STATUS, .BOOT_GEN, .BOOT_SVN, .BOOT_NEXT, .BOOT_EVT, .BOOT_IEN, .OTP_ADDR, .OTP_DATA, .OTP_CMD, .OTP_STATUS, .SVN_ADV, 
   .OTP_SVN, .XSPI_ADDR, .XSPI_CMD, .XSPI_STATUS, .ATT_SRC, .ATT_DST, .ATT_CTRL, .ATT_STATUS, .MEAS_SRC, .MEAS_CTRL, .XSPI_BUF, 
   .BOOT_IDPUB]

def regBlock0B : List RegId :=
  [.TST_CTRL, .TST_STATUS, .TST_EVT, .TST_IEN, .TST_AUDIT_MASK, .TST_AUDIT_REQ, .TST_SAVE, .TST_AUDIT_LAST, .TST_AUDIT_CNT, 
   .TST_DEFER_CNT, .TST_SKIP_CNT, .TST_SLICE, .FLT_REC, .FLT_POP, .FLT_STATUS, .FLT_LOST, .FLT_CNT, .TST_INJ_CTRL, 
   .TST_INJ_ADDR_LO, .TST_INJ_ADDR_HI, .TST_INJ_PARAM, .TST_INJ_DUR, .TST_INJ_CNT]

def regBlock10 : List RegId :=
  [.CORE_CTRL, .CORE_STATE, .CORE_BIND, .CORE_EVT, .CORE_IEN, .CORE_FAULT, .CORE_PC, .QPRI, .CHAIN_CFG, .CHAIN_STATUS, .CHAIN_TAG, 
   .CHAIN_STALL_CNT, .CHAIN_LOCAL_CNT, .HS_EXEC, .BLOCK_TIME, .DIGEST_LO, .DIGEST_HI, .QOCC, .PKT_INDEX, .PKT_DATA_LO, 
   .PKT_DATA_HI, .PKT_SRC_LO, .PKT_SRC_HI, .PKT_LOAD, .PKT_STATUS, .PKT_CRC, .STR_STATE, .STR_LEFT, .STR_REARM, .STR_ARMS, 
   .STR_ACC, .RING_LO, .RING_HI, .RING_STRIDE, .SLOT_WDOG, .SLOT_EVT, .SLOT_IEN, .SLOT_TAINT, .SLOT_TIMEOUT_CNT, .SLOT_POISON_CNT] ++
  [.SLOT_FAULT, .RING_CUT]

def regBlock30 : List RegId :=
  [.SNK_CTRL, .SNK_STATUS, .SNK_TIMING, .SNK_PERIOD, .SNK_COLOR, .SNK_LBUF, .SNK_EVT, .SNK_IEN, .SNK_FRAMES, .SNK_BAD, .SNK_OVF, 
   .SNK_SDP_DROP]

def regBlock32 : List RegId :=
  [.INP_CTRL, .INP_MAT, .INP_OFS, .INP_SUBST0, .INP_SUBST1, .INP_RING_BASE, .INP_RING_CFG, .INP_SLOT_STRIDE, .INP_PLANE_STRIDE, 
   .INP_COUNT_BASE, .INP_COUNT_STRIDE, .INP_REC, .INP_MAP_A, .INP_MAP_B, .INP_BYP, .INP_EVT, .INP_IEN, .INP_MISSING, .INP_OVR]

def regBlock33 : List RegId :=
  [.MOT_CTRL, .MOT_HOLD, .MOT_REF_LO, .MOT_REF_HI, .MOT_REF_STRIDE, .MOT_PYR_BASE, .MOT_PYR_STRIDE, .MOT_STATUS, .MOT_EVT, .MOT_IEN, 
   .MOT_REFS, .MOT_DROPS, .MOT_BW]

def regBlock34 : List RegId :=
  [.CMP_COMMIT, .CMP_STATUS, .CMP_EVT, .CMP_IEN, .CMP_APPLY_SEQ, .CMP_BG0, .CMP_BG1, .CMP_TKO_BG0, .CMP_TKO_BG1, .CMP_TKO_POS, 
   .SMAT_C, .SMAT_POST0, .SMAT_POST1, .UNDER_CNT, .ER_BASE, .ER_CFG, .ER_SLOT_STRIDE, .ER_PLANE_STRIDE, .ER_COUNT, .ER_CSTRIDE, 
   .ER_CSKEIN, .LAY_CTRL, .LAY_POS, .LAY_SIZE, .LAY_ADDR, .LAY_CADDR, .LAY_C2ADDR, .LAY_STRIDE, .LAY_CSTRIDE, .LAY_RING, 
   .LAY_HITCH, .LAY_HITCH_VAL]

def regBlock35 : List RegId :=
  [.LUT_CTRL, .LUT_STATUS, .LUT_SEL, .LUT_DATA, .LUT_EVT, .LUT_IEN]

def regBlock36 : List RegId :=
  [.CV_CTRL, .CV_STATUS, .CV_SRC, .CV_DST, .CV_LOAD, .CV_CRC, .CV_EVT, .CV_IEN]

def regBlock37 : List RegId :=
  [.TMG_CTRL, .TMG_H, .TMG_HS, .TMG_V, .TMG_VS, .TMG_PCLK, .TMG_LOCK, .TMG_VFPMIN, .TMG_STATUS, .TMG_ERR, .TMG_EVT, .TMG_IEN]

def regBlock38 : List RegId :=
  [.SRC_CTRL, .SRC_FMT, .SRC_DSC, .SRC_VSC, .SRC_MAT, .SRC_PRE0, .SRC_PRE1, .SRC_POST0, .SRC_POST1, .SRC_STATUS, .SRC_EVT, .SRC_IEN]

def regBlock3A : List RegId :=
  [.GRD_EVT, .GRD_IEN, .RB_CTRL, .RB_STATUS, .RB_CNT0, .RB_CNT1, .GRD_CFG, .GRD_POS, .GRD_SIZE, .GRD_EXP, .GRD_MEAS, .GRD_CNT]

def regBlock40 : List RegId :=
  [.PRT_CTRL, .PRT_STATUS, .PRT_MAC_LO, .PRT_MAC_HI, .PRT_PEER_LO, .PRT_PEER_HI, .PRT_LINK, .PRT_EVT, .PRT_IEN, .PRT_TXF, .PRT_RXF, 
   .PRT_FCS_ERR, .PRT_RETX, .PRT_NOBUF, .PRT_OTHER, .PRT_FI_CTRL, .PRT_FI_SEL, .PRT_FI_PARAM, .PRT_FI_LIMIT, .PRT_FI_COUNT]

def regBlock44 : List RegId :=
  [.PLT_CTRL, .PLT_STATUS, .PLT_TXN_TMO, .PLT_MC, .PLT_BCAST, .PLT_MGMT, .PLT_EVT, .PLT_IEN, .PLT_E2E_ERR, .PLT_RELAY, .PLT_DISCARD, 
   .PLT_DMA_EVT, .PLT_DMA_IEN, .PLT_ROUTE, .PLT_MCG, .WIN_SEL, .WIN_BASE_LO, .WIN_BASE_HI, .WIN_SIZE, .WIN_PEERS, .WIN_CTRL, 
   .WIN_STATUS, .WIN_CLOSED_CNT, .WIN_DENIED_CNT, .WIN_OVERRUN_CNT, .DMA_CTRL, .DMA_LOCAL_LO, .DMA_LOCAL_HI, .DMA_TARGET, 
   .DMA_ROFS_LO, .DMA_ROFS_HI, .DMA_LEN, .DMA_STATUS, .DMA_DONE, .DMA_MC, .DMA_MC_ATT, .DMA_MC_FAIL, .DMA_SPL_SRC, .DMA_SPL_SHAPE, 
   .DMA_SPL_STR] ++
  [.DMA_SPL_FILL]

def regBlock45 : List RegId :=
  [.TIME_CTRL, .TIME_STATUS, .TIME_NOW_LO, .TIME_NOW_HI, .TIME_FRAC, .TIME_US, .TIME_STEP_LO, .TIME_STEP_HI, .TIME_RATE, 
   .TIME_INTEG, .TIME_OFFSET, .TIME_SERVO, .TIME_LIMIT, .TIME_GPTP, .TIME_PORTS, .TIME_CLKID_LO, .TIME_CLKID_HI, .TIME_EVT, 
   .TIME_IEN, .TIME_STEPS, .PTP_DELAY, .PTP_NRR, .PTP_LAT, .PTP_ASYM, .PTP_SYNCS, .FLIP_BASE_LO, .FLIP_BASE_HI, .FLIP_NUM, 
   .FLIP_CFG, .FLIP_INDEX_LO, .FLIP_INDEX_HI, .FLIP_ERR, .ANN_CTRL, .ANN_WATCH, .ANN_TKO, .ANN_LOST, .ANN_BADIDX, .ANN_STAT]

def regBlock46 : List RegId :=
  [.EVT_CTRL, .EVT_RESEND, .EVT_STATUS, .EVT_SEQ, .EVT_SENT, .EVT_RESENDS]

/-- The registers of the 64 KB block numbered `b`; the blocks of cores 0 to 31, of the sink ports, of the source ports and of
the Ethernet ports repeat the first one's. -/
def regsOfBlock (b : Nat) : List RegId :=
  if b = 0x0 then regBlock00
  else if b = 0x1 then regBlock01
  else if b = 0x2 then regBlock02
  else if b = 0x3 then regBlock03
  else if b = 0x4 then regBlock04
  else if b = 0x5 then regBlock05
  else if b = 0x6 then regBlock06
  else if b = 0x7 then regBlock07
  else if b = 0x8 then regBlock08
  else if b = 0x9 then regBlock09
  else if b = 0xa then regBlock0A
  else if b = 0xb then regBlock0B
  else if 0x10 ≤ b ∧ b ≤ 0x2f then regBlock10
  else if 0x30 ≤ b ∧ b ≤ 0x31 then regBlock30
  else if b = 0x32 then regBlock32
  else if b = 0x33 then regBlock33
  else if b = 0x34 then regBlock34
  else if b = 0x35 then regBlock35
  else if b = 0x36 then regBlock36
  else if b = 0x37 then regBlock37
  else if 0x38 ≤ b ∧ b ≤ 0x39 then regBlock38
  else if b = 0x3a then regBlock3A
  else if 0x40 ≤ b ∧ b ≤ 0x43 then regBlock40
  else if b = 0x44 then regBlock44
  else if b = 0x45 then regBlock45
  else if b = 0x46 then regBlock46
  else []

end Sys2Proof.Machine

/-- A field of a register: its high and low bit. -/
structure Sys2Proof.Machine.RegField where
  reg : Sys2Proof.Machine.RegId
  hi : Nat
  lo : Nat
  deriving DecidableEq, Repr

/-! The fields of the registers, as the Field column of the tables names them. -/

namespace Sys2Proof.Machine.F

def FAB_CTRL_BELAY_EN : RegField := ⟨.FAB_CTRL, 0, 0⟩
def FAB_CTRL_REBAL_EN : RegField := ⟨.FAB_CTRL, 1, 1⟩
def FAB_CTRL_REBAL_KEEPER : RegField := ⟨.FAB_CTRL, 2, 2⟩
def FAB_CTRL_MON_EN : RegField := ⟨.FAB_CTRL, 3, 3⟩
def FAB_STATUS_AUDIT_OK : RegField := ⟨.FAB_STATUS, 0, 0⟩
def FAB_STATUS_AT_LIMIT : RegField := ⟨.FAB_STATUS, 1, 1⟩
def FAB_STATUS_LOW_INHIBIT : RegField := ⟨.FAB_STATUS, 2, 2⟩
def FAB_STATUS_CONFLICT : RegField := ⟨.FAB_STATUS, 3, 3⟩
def BELAY_SLACK_TARGET : RegField := ⟨.BELAY_SLACK, 6, 0⟩
def BELAY_SLACK_FLOOR : RegField := ⟨.BELAY_SLACK, 14, 8⟩
def BELAY_SLACK_HYST : RegField := ⟨.BELAY_SLACK, 22, 16⟩
def BELAY_SLACK_AUDIT_SLACK : RegField := ⟨.BELAY_SLACK, 30, 24⟩
def BELAY_TIME_RAISE_INT : RegField := ⟨.BELAY_TIME, 7, 0⟩
def BELAY_TIME_LOWER_INT : RegField := ⟨.BELAY_TIME, 17, 8⟩
def BELAY_TIME_LOWER_HOLD : RegField := ⟨.BELAY_TIME, 27, 18⟩
def BELAY_VLIM_VMIN : RegField := ⟨.BELAY_VLIM, 9, 0⟩
def BELAY_VLIM_VMAX : RegField := ⟨.BELAY_VLIM, 19, 10⟩
def BELAY_VLIM_GUARD : RegField := ⟨.BELAY_VLIM, 25, 20⟩
def BELAY_STATE_RAIL : RegField := ⟨.BELAY_STATE, 9, 0⟩
def BELAY_STATE_VLOW : RegField := ⟨.BELAY_STATE, 25, 16⟩
def BELAY_EVT_BELOW_TARGET : RegField := ⟨.BELAY_EVT, 1, 0⟩
def BELAY_EVT_BELOW_FLOOR : RegField := ⟨.BELAY_EVT, 3, 2⟩
def BELAY_EVT_AT_MAX : RegField := ⟨.BELAY_EVT, 4, 4⟩
def BELAY_EVT_VLIM_CONFLICT : RegField := ⟨.BELAY_EVT, 5, 5⟩
def BELAY_EVT_AVS_FAULT : RegField := ⟨.BELAY_EVT, 6, 6⟩
def BELAY_EVT_FLOOR_VIOLATION : RegField := ⟨.BELAY_EVT, 7, 7⟩
def BELAY_EVT_REBAL_DONE : RegField := ⟨.BELAY_EVT, 9, 8⟩
def BELAY_IEN_IEN : RegField := ⟨.BELAY_IEN, 9, 0⟩
def RAISE_COUNT_COUNT : RegField := ⟨.RAISE_COUNT, 31, 0⟩
def LOWER_COUNT_COUNT : RegField := ⟨.LOWER_COUNT, 31, 0⟩
def AT_MAX_COUNT_COUNT : RegField := ⟨.AT_MAX_COUNT, 31, 0⟩
def REBAL_CFG_HYST : RegField := ⟨.REBAL_CFG, 7, 0⟩
def REBAL_CFG_MAX_STEPS : RegField := ⟨.REBAL_CFG, 9, 8⟩
def MON_CFG_WINDOW : RegField := ⟨.MON_CFG, 9, 0⟩
def MON_CFG_CLAMP_WINDOWS : RegField := ⟨.MON_CFG, 23, 16⟩
def CORE_EN_EN : RegField := ⟨.CORE_EN, 31, 0⟩
def MON_DISAGREE_DIS : RegField := ⟨.MON_DISAGREE, 31, 0⟩
def CORE_SPEED_EST : RegField := ⟨.CORE_SPEED, 15, 0⟩
def CORE_SPEED_MEAS : RegField := ⟨.CORE_SPEED, 31, 16⟩
def RPT_SEQ_VALUE : RegField := ⟨.RPT_SEQ, 31, 0⟩
def RPT_TIME_LO_VALUE : RegField := ⟨.RPT_TIME_LO, 31, 0⟩
def RPT_TIME_HI_VALUE : RegField := ⟨.RPT_TIME_HI, 31, 0⟩
def RPT_CFG_WINDOW : RegField := ⟨.RPT_CFG, 6, 0⟩
def RPT_CFG_STRIPES : RegField := ⟨.RPT_CFG, 13, 8⟩
def RPT_MIN_SLACK : RegField := ⟨.RPT_MIN, 15, 0⟩
def RPT_MINPOS_LINE : RegField := ⟨.RPT_MINPOS, 12, 0⟩
def RPT_MINPOS_STRIPE : RegField := ⟨.RPT_MINPOS, 21, 16⟩
def RPT_FORCED_COUNT : RegField := ⟨.RPT_FORCED, 31, 0⟩
def RPT_POISONED_COUNT : RegField := ⟨.RPT_POISONED, 31, 0⟩
def RPT_LATE_COUNT : RegField := ⟨.RPT_LATE, 31, 0⟩
def RPT_POLICY_COUNT : RegField := ⟨.RPT_POLICY, 31, 0⟩
def RPT_MISSING_COUNT : RegField := ⟨.RPT_MISSING, 31, 0⟩
def CUM_FORCED_COUNT : RegField := ⟨.CUM_FORCED, 31, 0⟩
def CUM_POISONED_COUNT : RegField := ⟨.CUM_POISONED, 31, 0⟩
def CUM_LATE_COUNT : RegField := ⟨.CUM_LATE, 31, 0⟩
def CUM_POLICY_COUNT : RegField := ⟨.CUM_POLICY, 31, 0⟩
def LIVE_SLACK_SLACK : RegField := ⟨.LIVE_SLACK, 15, 0⟩
def CUM_CLEAR_CLEAR : RegField := ⟨.CUM_CLEAR, 0, 0⟩
def EFF_SLACK_TARGET : RegField := ⟨.EFF_SLACK, 6, 0⟩
def EFF_SLACK_FLOOR : RegField := ⟨.EFF_SLACK, 14, 8⟩
def GEOM_LIMIT_MIN_WIDTH : RegField := ⟨.GEOM_LIMIT, 8, 0⟩
def GEOM_LIMIT_MAX_WIDTH : RegField := ⟨.GEOM_LIMIT, 24, 16⟩
def STRIPE_SLACK_SLACK : RegField := ⟨.STRIPE_SLACK, 15, 0⟩
def STRIPE_GEOM_START : RegField := ⟨.STRIPE_GEOM, 8, 0⟩
def STRIPE_GEOM_WIDTH : RegField := ⟨.STRIPE_GEOM, 24, 16⟩
def STRIPE_SHADOW_START : RegField := ⟨.STRIPE_SHADOW, 8, 0⟩
def STRIPE_SHADOW_WIDTH : RegField := ⟨.STRIPE_SHADOW, 24, 16⟩
def STRIPE_PROPOSAL_START : RegField := ⟨.STRIPE_PROPOSAL, 8, 0⟩
def STRIPE_PROPOSAL_WIDTH : RegField := ⟨.STRIPE_PROPOSAL, 24, 16⟩
def STRIPE_RATE_RATE : RegField := ⟨.STRIPE_RATE, 31, 0⟩
def CAL_CTRL_LIVE_CAL : RegField := ⟨.CAL_CTRL, 0, 0⟩
def CAL_CTRL_USER_CLEAR : RegField := ⟨.CAL_CTRL, 1, 1⟩
def CAL_CLAMP_CLAMP : RegField := ⟨.CAL_CLAMP, 31, 0⟩
def CAL_FLIM_V_VF_MIN : RegField := ⟨.CAL_FLIM_V, 9, 0⟩
def CAL_FLIM_V_VF_MAX : RegField := ⟨.CAL_FLIM_V, 25, 16⟩
def CAL_FLIM_G_G_MIN : RegField := ⟨.CAL_FLIM_G, 15, 0⟩
def CAL_FLIM_G_G_MAX : RegField := ⟨.CAL_FLIM_G, 31, 16⟩
def CAL_FLIM_T_T_LIM : RegField := ⟨.CAL_FLIM_T, 7, 0⟩
def CAL_FV_VF25 : RegField := ⟨.CAL_FV, 9, 0⟩
def CAL_FV_VF105 : RegField := ⟨.CAL_FV, 25, 16⟩
def CAL_FGT_GAIN : RegField := ⟨.CAL_FGT, 15, 0⟩
def CAL_FGT_TTRIM : RegField := ⟨.CAL_FGT, 23, 16⟩
def CAL_USER_VOFS : RegField := ⟨.CAL_USER, 7, 0⟩
def CAL_USER_GOFS : RegField := ⟨.CAL_USER, 19, 8⟩
def CAL_USER_TOFS : RegField := ⟨.CAL_USER, 27, 20⟩
def CAL_EV_VF25 : RegField := ⟨.CAL_EV, 9, 0⟩
def CAL_EV_VF105 : RegField := ⟨.CAL_EV, 25, 16⟩
def CAL_EGT_GAIN : RegField := ⟨.CAL_EGT, 15, 0⟩
def CAL_EGT_TEMP : RegField := ⟨.CAL_EGT, 27, 16⟩
def AVS_CTRL_EN : RegField := ⟨.AVS_CTRL, 0, 0⟩
def AVS_CTRL_MODE : RegField := ⟨.AVS_CTRL, 1, 1⟩
def AVS_CTRL_DIV : RegField := ⟨.AVS_CTRL, 5, 2⟩
def AVS_CTRL_RAIL_SEL : RegField := ⟨.AVS_CTRL, 11, 8⟩
def AVS_TARGET_MV : RegField := ⟨.AVS_TARGET, 9, 0⟩
def AVS_STATUS_CMD : RegField := ⟨.AVS_STATUS, 9, 0⟩
def AVS_STATUS_BUSY : RegField := ⟨.AVS_STATUS, 16, 16⟩
def AVS_STATUS_LAST_STAT : RegField := ⟨.AVS_STATUS, 18, 17⟩
def AVS_READ_VOUT : RegField := ⟨.AVS_READ, 15, 0⟩
def AVS_READ_IOUT : RegField := ⟨.AVS_READ, 31, 16⟩
def AVS_ERRCNT_RETRIES : RegField := ⟨.AVS_ERRCNT, 15, 0⟩
def AVS_ERRCNT_FAILURES : RegField := ⟨.AVS_ERRCNT, 31, 16⟩
def AVS_POLL_INTERVAL : RegField := ⟨.AVS_POLL, 9, 0⟩
def PMB_CTRL_EN : RegField := ⟨.PMB_CTRL, 0, 0⟩
def PMB_CTRL_SPEED : RegField := ⟨.PMB_CTRL, 2, 1⟩
def PMB_CTRL_PEC : RegField := ⟨.PMB_CTRL, 3, 3⟩
def PMB_XFER_ADDR : RegField := ⟨.PMB_XFER, 6, 0⟩
def PMB_XFER_CMD : RegField := ⟨.PMB_XFER, 15, 8⟩
def PMB_XFER_READ : RegField := ⟨.PMB_XFER, 16, 16⟩
def PMB_XFER_LEN : RegField := ⟨.PMB_XFER, 19, 17⟩
def PMB_XFER_START : RegField := ⟨.PMB_XFER, 31, 31⟩
def PMB_DATA_DATA : RegField := ⟨.PMB_DATA, 31, 0⟩
def PMB_STATUS_DONE : RegField := ⟨.PMB_STATUS, 0, 0⟩
def PMB_STATUS_NACK : RegField := ⟨.PMB_STATUS, 1, 1⟩
def PMB_STATUS_PEC_ERR : RegField := ⟨.PMB_STATUS, 2, 2⟩
def PMB_STATUS_ARB_LOST : RegField := ⟨.PMB_STATUS, 3, 3⟩
def PMB_STATUS_BUSY : RegField := ⟨.PMB_STATUS, 4, 4⟩
def STO_CTRL_SCRUB_EN : RegField := ⟨.STO_CTRL, 4, 0⟩
def STO_CTRL_CNT_CLEAR : RegField := ⟨.STO_CTRL, 8, 8⟩
def STO_STATUS_INIT_DONE : RegField := ⟨.STO_STATUS, 0, 0⟩
def STO_STATUS_BAND_BUSY : RegField := ⟨.STO_STATUS, 12, 8⟩
def STO_EVT_ECC_CORR : RegField := ⟨.STO_EVT, 4, 0⟩
def STO_EVT_ECC_UNC : RegField := ⟨.STO_EVT, 12, 8⟩
def STO_EVT_WATCH_FULL : RegField := ⟨.STO_EVT, 20, 16⟩
def STO_EVT_BAND_DONE : RegField := ⟨.STO_EVT, 24, 24⟩
def STO_IEN_IEN : RegField := ⟨.STO_IEN, 24, 0⟩
def STO_SCRUB_CFG_INTERVAL : RegField := ⟨.STO_SCRUB_CFG, 15, 0⟩
def STO_UNC_ADDR_LO_ADDR : RegField := ⟨.STO_UNC_ADDR_LO, 31, 0⟩
def STO_UNC_ADDR_HI_ADDR : RegField := ⟨.STO_UNC_ADDR_HI, 7, 0⟩
def STO_UNC_ADDR_HI_SOURCE : RegField := ⟨.STO_UNC_ADDR_HI, 15, 8⟩
def STO_UNC_ADDR_HI_STORE : RegField := ⟨.STO_UNC_ADDR_HI, 18, 16⟩
def STO_UNC_ADDR_HI_VALID : RegField := ⟨.STO_UNC_ADDR_HI, 31, 31⟩
def STO_CORR_ADDR_LO_ADDR : RegField := ⟨.STO_CORR_ADDR_LO, 31, 0⟩
def STO_CORR_ADDR_HI_ADDR : RegField := ⟨.STO_CORR_ADDR_HI, 7, 0⟩
def STO_CORR_ADDR_HI_SOURCE : RegField := ⟨.STO_CORR_ADDR_HI, 15, 8⟩
def STO_CORR_ADDR_HI_STORE : RegField := ⟨.STO_CORR_ADDR_HI, 18, 16⟩
def STO_BAND_REQ : RegField := ⟨.STO_BAND, 15, 0⟩
def STO_BAND_STATE : RegField := ⟨.STO_BAND, 31, 16⟩
def STO_GEOM_OCTETS : RegField := ⟨.STO_GEOM, 7, 0⟩
def STO_GEOM_PORTS : RegField := ⟨.STO_GEOM, 15, 8⟩
def STO_GEOM_ROWS : RegField := ⟨.STO_GEOM, 29, 16⟩
def STO_ECC_CORR_COUNT : RegField := ⟨.STO_ECC_CORR, 31, 0⟩
def STO_ECC_UNC_COUNT : RegField := ⟨.STO_ECC_UNC, 31, 0⟩
def STO_SCRUB_PASS_COUNT : RegField := ⟨.STO_SCRUB_PASS, 31, 0⟩
def STO_WATCH_FULL : RegField := ⟨.STO_WATCH, 15, 0⟩
def STO_WATCH_PEAK : RegField := ⟨.STO_WATCH, 19, 16⟩
def STO_UTIL_PERMILLE : RegField := ⟨.STO_UTIL, 9, 0⟩
def STO_WHEEL_PHASE : RegField := ⟨.STO_WHEEL, 7, 0⟩
def KNT_CTRL_EPOCH_LIMIT : RegField := ⟨.KNT_CTRL, 3, 0⟩
def KNT_CTRL_SWEEP_EN : RegField := ⟨.KNT_CTRL, 8, 8⟩
def KNT_STATUS_BIND_BUSY : RegField := ⟨.KNT_STATUS, 0, 0⟩
def KNT_STATUS_VERIFY_BUSY : RegField := ⟨.KNT_STATUS, 1, 1⟩
def KNT_STATUS_EPOCH_STATE : RegField := ⟨.KNT_STATUS, 5, 4⟩
def KNT_STATUS_WAITED : RegField := ⟨.KNT_STATUS, 11, 8⟩
def KNT_EVT_BIND_DONE : RegField := ⟨.KNT_EVT, 0, 0⟩
def KNT_EVT_BIND_ERR : RegField := ⟨.KNT_EVT, 1, 1⟩
def KNT_EVT_VERIFY_DONE : RegField := ⟨.KNT_EVT, 2, 2⟩
def KNT_EVT_EPOCH_APPLIED : RegField := ⟨.KNT_EVT, 3, 3⟩
def KNT_EVT_EPOCH_PARTIAL : RegField := ⟨.KNT_EVT, 4, 4⟩
def KNT_EVT_EPOCH_REJECT : RegField := ⟨.KNT_EVT, 5, 5⟩
def KNT_EVT_LEASE_EXPIRED : RegField := ⟨.KNT_EVT, 6, 6⟩
def KNT_IEN_IEN : RegField := ⟨.KNT_IEN, 6, 0⟩
def EPOCH_NUM_NUM : RegField := ⟨.EPOCH_NUM, 31, 0⟩
def EPOCH_CORES_CORES : RegField := ⟨.EPOCH_CORES, 31, 0⟩
def EPOCH_READY_READY : RegField := ⟨.EPOCH_READY, 31, 0⟩
def EPOCH_STREAMS_REBOUND : RegField := ⟨.EPOCH_STREAMS, 1, 0⟩
def EPOCH_STREAMS_PENDING : RegField := ⟨.EPOCH_STREAMS, 5, 4⟩
def EPOCH_PARTIAL_CNT_COUNT : RegField := ⟨.EPOCH_PARTIAL_CNT, 31, 0⟩
def EPOCH_STRAY_COUNT : RegField := ⟨.EPOCH_STRAY, 31, 0⟩
def KNT_SEL_KNOT : RegField := ⟨.KNT_SEL, 13, 0⟩
def KNT_ENTRY_STATE : RegField := ⟨.KNT_ENTRY, 2, 0⟩
def BIND_SEL_SLOT : RegField := ⟨.BIND_SEL, 4, 0⟩
def BIND_KNOT_KNOT : RegField := ⟨.BIND_KNOT, 13, 0⟩
def BIND_KNOT_MODE : RegField := ⟨.BIND_KNOT, 16, 16⟩
def BIND_TARGET_SKEIN : RegField := ⟨.BIND_TARGET, 4, 0⟩
def BIND_TARGET_STREAM : RegField := ⟨.BIND_TARGET, 9, 8⟩
def BIND_TARGET_STRIPE : RegField := ⟨.BIND_TARGET, 21, 16⟩
def BIND_TARGET_STRIPES : RegField := ⟨.BIND_TARGET, 29, 24⟩
def BIND_CORES_MASK : RegField := ⟨.BIND_CORES, 31, 0⟩
def BIND_GEOM_START : RegField := ⟨.BIND_GEOM, 8, 0⟩
def BIND_GEOM_WIDTH : RegField := ⟨.BIND_GEOM, 24, 16⟩
def BIND_CTRL_GO : RegField := ⟨.BIND_CTRL, 0, 0⟩
def BIND_CTRL_UNBIND : RegField := ⟨.BIND_CTRL, 1, 1⟩
def BIND_CTRL_CANCEL : RegField := ⟨.BIND_CTRL, 2, 2⟩
def BIND_STATUS_STATE : RegField := ⟨.BIND_STATUS, 1, 0⟩
def BIND_STATUS_CODE : RegField := ⟨.BIND_STATUS, 15, 8⟩
def VER_CTRL_KNOT : RegField := ⟨.VER_CTRL, 13, 0⟩
def VER_CTRL_GO : RegField := ⟨.VER_CTRL, 31, 31⟩
def VER_STATUS_CODE : RegField := ⟨.VER_STATUS, 7, 0⟩
def LSE_SEL_INDEX : RegField := ⟨.LSE_SEL, 7, 0⟩
def LSE_ADDR_LO_ADDR : RegField := ⟨.LSE_ADDR_LO, 31, 3⟩
def LSE_ADDR_HI_ADDR : RegField := ⟨.LSE_ADDR_HI, 7, 0⟩
def LSE_ADDR_HI_VALID : RegField := ⟨.LSE_ADDR_HI, 31, 31⟩
def LSE_LAST_INDEX : RegField := ⟨.LSE_LAST, 7, 0⟩
def LSE_OWNER_OWNER : RegField := ⟨.LSE_OWNER, 31, 0⟩
def LSE_COUNT_COUNT : RegField := ⟨.LSE_COUNT, 31, 0⟩
def LIB_BASE_LO_ADDR : RegField := ⟨.LIB_BASE_LO, 31, 12⟩
def LIB_BASE_HI_ADDR : RegField := ⟨.LIB_BASE_HI, 7, 0⟩
def LIB_SIZE_MB : RegField := ⟨.LIB_SIZE, 11, 0⟩
def IMP_KNOT_KNOT : RegField := ⟨.IMP_KNOT, 13, 0⟩
def IMP_OFS_OFS : RegField := ⟨.IMP_OFS, 19, 0⟩
def IMP_LEN_BYTES : RegField := ⟨.IMP_LEN, 31, 0⟩
def IMP_CTRL_NOBODY : RegField := ⟨.IMP_CTRL, 0, 0⟩
def IMP_CTRL_GO : RegField := ⟨.IMP_CTRL, 31, 31⟩
def IMP_STATUS_BUSY : RegField := ⟨.IMP_STATUS, 0, 0⟩
def IMP_STATUS_DONE : RegField := ⟨.IMP_STATUS, 1, 1⟩
def IMP_STATUS_HALF : RegField := ⟨.IMP_STATUS, 2, 2⟩
def IMP_STATUS_CODE : RegField := ⟨.IMP_STATUS, 15, 8⟩
def LIB_IMPORTS_COUNT : RegField := ⟨.LIB_IMPORTS, 31, 0⟩
def HYP_CTRL_EN : RegField := ⟨.HYP_CTRL, 0, 0⟩
def HYP_CTRL_INIT : RegField := ⟨.HYP_CTRL, 1, 1⟩
def HYP_CFG_CAP : RegField := ⟨.HYP_CFG, 2, 0⟩
def HYP_CFG_CS2 : RegField := ⟨.HYP_CFG, 4, 4⟩
def HYP_TIMING_LAT : RegField := ⟨.HYP_TIMING, 3, 0⟩
def HYP_TIMING_RWR : RegField := ⟨.HYP_TIMING, 11, 8⟩
def HYP_TIMING_CSM : RegField := ⟨.HYP_TIMING, 23, 16⟩
def HYP_STATUS_READY : RegField := ⟨.HYP_STATUS, 0, 0⟩
def HYP_STATUS_INIT_BUSY : RegField := ⟨.HYP_STATUS, 1, 1⟩
def HYP_STATUS_INIT_ERR : RegField := ⟨.HYP_STATUS, 2, 2⟩
def HYP_CHERR_CH : RegField := ⟨.HYP_CHERR, 15, 0⟩
def HYP_UTIL_PERMILLE : RegField := ⟨.HYP_UTIL, 9, 0⟩
def KEP_CTRL_START : RegField := ⟨.KEP_CTRL, 3, 0⟩
def KEP_CTRL_HALT : RegField := ⟨.KEP_CTRL, 7, 4⟩
def KEP_CTRL_RESET : RegField := ⟨.KEP_CTRL, 11, 8⟩
def KEP_STATE_STATE : RegField := ⟨.KEP_STATE, 1, 0⟩
def KEP_STATE_WAITING : RegField := ⟨.KEP_STATE, 2, 2⟩
def KEP_STATE_PC : RegField := ⟨.KEP_STATE, 28, 16⟩
def KEP_FAULT_CODE : RegField := ⟨.KEP_FAULT, 7, 0⟩
def KEP_FAULT_PC : RegField := ⟨.KEP_FAULT, 20, 8⟩
def KEP_FAULT_VALID : RegField := ⟨.KEP_FAULT, 31, 31⟩
def KEP_PEVT_TICK : RegField := ⟨.KEP_PEVT, 0, 0⟩
def KEP_PEVT_DOORBELL0 : RegField := ⟨.KEP_PEVT, 1, 1⟩
def KEP_PEVT_DOORBELL1 : RegField := ⟨.KEP_PEVT, 2, 2⟩
def KEP_PEVT_DOORBELL2 : RegField := ⟨.KEP_PEVT, 3, 3⟩
def KEP_PEVT_DOORBELL3 : RegField := ⟨.KEP_PEVT, 4, 4⟩
def KEP_PEVT_PEER_FAULT : RegField := ⟨.KEP_PEVT, 5, 5⟩
def KEP_PEVT_WDOG : RegField := ⟨.KEP_PEVT, 6, 6⟩
def KEP_RING_TARGETS : RegField := ⟨.KEP_RING, 3, 0⟩
def KEP_RING_FROM : RegField := ⟨.KEP_RING, 5, 4⟩
def TICK_COUNT_COUNT : RegField := ⟨.TICK_COUNT, 31, 0⟩
def TICK_OVERRUN_COUNT : RegField := ⟨.TICK_OVERRUN, 31, 0⟩
def KEP_WDOG_TICKS : RegField := ⟨.KEP_WDOG, 7, 0⟩
def KEP_WDOG_KICK : RegField := ⟨.KEP_WDOG, 31, 31⟩
def MBX_STATUS_H2D_FULL : RegField := ⟨.MBX_STATUS, 0, 0⟩
def MBX_STATUS_D2H_FULL : RegField := ⟨.MBX_STATUS, 1, 1⟩
def MBX_STATUS_READY : RegField := ⟨.MBX_STATUS, 2, 2⟩
def MBX_STATUS_H2D_LEN : RegField := ⟨.MBX_STATUS, 14, 8⟩
def MBX_STATUS_D2H_LEN : RegField := ⟨.MBX_STATUS, 22, 16⟩
def MBX_CTRL_H2D_DONE : RegField := ⟨.MBX_CTRL, 0, 0⟩
def MBX_CTRL_D2H_SEND : RegField := ⟨.MBX_CTRL, 1, 1⟩
def MBX_EVT_H2D_ARRIVED : RegField := ⟨.MBX_EVT, 0, 0⟩
def MBX_EVT_D2H_TAKEN : RegField := ⟨.MBX_EVT, 1, 1⟩
def MBX_EVT_REJECT : RegField := ⟨.MBX_EVT, 2, 2⟩
def MBX_IEN_IEN : RegField := ⟨.MBX_IEN, 2, 0⟩
def MBX_H2D_DATA : RegField := ⟨.MBX_H2D, 31, 0⟩
def MBX_D2H_DATA : RegField := ⟨.MBX_D2H, 31, 0⟩
def IRQ_SOFT_LO_SOFT : RegField := ⟨.IRQ_SOFT_LO, 31, 0⟩
def IRQ_SOFT_HI_SOFT : RegField := ⟨.IRQ_SOFT_HI, 31, 0⟩
def IRQ_SOFTSET_LO_SET : RegField := ⟨.IRQ_SOFTSET_LO, 31, 0⟩
def IRQ_SOFTSET_HI_SET : RegField := ⟨.IRQ_SOFTSET_HI, 31, 0⟩
def IRQ_CLAIM_SOURCE : RegField := ⟨.IRQ_CLAIM, 9, 0⟩
def IRQ_WAIT_SOURCE : RegField := ⟨.IRQ_WAIT, 9, 0⟩
def IRQ_COMPLETE_SOURCE : RegField := ⟨.IRQ_COMPLETE, 9, 0⟩
def IRQ_THRESH_THRESH : RegField := ⟨.IRQ_THRESH, 2, 0⟩
def IRQ_MISCOUNT_COUNT : RegField := ⟨.IRQ_MISCOUNT, 31, 0⟩
def IRQ_CLAIMS_COUNT : RegField := ⟨.IRQ_CLAIMS, 31, 0⟩
def IRQ_CFG_PRIO : RegField := ⟨.IRQ_CFG, 2, 0⟩
def IRQ_CFG_TARGETS : RegField := ⟨.IRQ_CFG, 12, 8⟩
def IRQ_CFG_LEVEL : RegField := ⟨.IRQ_CFG, 16, 16⟩
def IRQ_CFG_PENDING : RegField := ⟨.IRQ_CFG, 17, 17⟩
def IRQ_CFG_INSERV : RegField := ⟨.IRQ_CFG, 18, 18⟩
def IRQ_CFG_SERVER : RegField := ⟨.IRQ_CFG, 22, 20⟩
def IRQ_PCFG_PRIO : RegField := ⟨.IRQ_PCFG, 2, 0⟩
def IRQ_PCFG_LEVEL : RegField := ⟨.IRQ_PCFG, 16, 16⟩
def IRQ_PCFG_PENDING : RegField := ⟨.IRQ_PCFG, 17, 17⟩
def IRQ_PCFG_INSERV : RegField := ⟨.IRQ_PCFG, 18, 18⟩
def BOOT_STATUS_SRC : RegField := ⟨.BOOT_STATUS, 0, 0⟩
def BOOT_STATUS_SLOT : RegField := ⟨.BOOT_STATUS, 1, 1⟩
def BOOT_STATUS_IDPUB_VALID : RegField := ⟨.BOOT_STATUS, 2, 2⟩
def BOOT_STATUS_A_RESULT : RegField := ⟨.BOOT_STATUS, 15, 8⟩
def BOOT_STATUS_B_RESULT : RegField := ⟨.BOOT_STATUS, 23, 16⟩
def BOOT_GEN_GEN : RegField := ⟨.BOOT_GEN, 31, 0⟩
def BOOT_SVN_SVN : RegField := ⟨.BOOT_SVN, 9, 0⟩
def BOOT_NEXT_VALID : RegField := ⟨.BOOT_NEXT, 0, 0⟩
def BOOT_NEXT_SLOT : RegField := ⟨.BOOT_NEXT, 1, 1⟩
def BOOT_EVT_OTP_DONE : RegField := ⟨.BOOT_EVT, 0, 0⟩
def BOOT_EVT_XSPI_DONE : RegField := ⟨.BOOT_EVT, 1, 1⟩
def BOOT_EVT_ATT_DONE : RegField := ⟨.BOOT_EVT, 2, 2⟩
def BOOT_EVT_MEAS_DONE : RegField := ⟨.BOOT_EVT, 3, 3⟩
def BOOT_IEN_IEN : RegField := ⟨.BOOT_IEN, 3, 0⟩
def OTP_ADDR_WORD : RegField := ⟨.OTP_ADDR, 8, 0⟩
def OTP_DATA_DATA : RegField := ⟨.OTP_DATA, 31, 0⟩
def OTP_CMD_OP : RegField := ⟨.OTP_CMD, 1, 0⟩
def OTP_CMD_GO : RegField := ⟨.OTP_CMD, 31, 31⟩
def OTP_STATUS_BUSY : RegField := ⟨.OTP_STATUS, 0, 0⟩
def OTP_STATUS_ERR : RegField := ⟨.OTP_STATUS, 1, 1⟩
def SVN_ADV_VALUE : RegField := ⟨.SVN_ADV, 9, 0⟩
def SVN_ADV_KIND : RegField := ⟨.SVN_ADV, 12, 12⟩
def SVN_ADV_GO : RegField := ⟨.SVN_ADV, 31, 31⟩
def OTP_SVN_FW : RegField := ⟨.OTP_SVN, 9, 0⟩
def OTP_SVN_KNOT : RegField := ⟨.OTP_SVN, 25, 16⟩
def XSPI_ADDR_ADDR : RegField := ⟨.XSPI_ADDR, 31, 0⟩
def XSPI_CMD_OP : RegField := ⟨.XSPI_CMD, 1, 0⟩
def XSPI_CMD_GO : RegField := ⟨.XSPI_CMD, 31, 31⟩
def XSPI_STATUS_BUSY : RegField := ⟨.XSPI_STATUS, 0, 0⟩
def XSPI_STATUS_ERR : RegField := ⟨.XSPI_STATUS, 1, 1⟩
def ATT_SRC_ADDR : RegField := ⟨.ATT_SRC, 31, 3⟩
def ATT_DST_ADDR : RegField := ⟨.ATT_DST, 31, 3⟩
def ATT_CTRL_OP : RegField := ⟨.ATT_CTRL, 1, 0⟩
def ATT_CTRL_LEN : RegField := ⟨.ATT_CTRL, 28, 16⟩
def ATT_CTRL_GO : RegField := ⟨.ATT_CTRL, 31, 31⟩
def ATT_STATUS_BUSY : RegField := ⟨.ATT_STATUS, 0, 0⟩
def ATT_STATUS_SESSION : RegField := ⟨.ATT_STATUS, 1, 1⟩
def ATT_STATUS_CODE : RegField := ⟨.ATT_STATUS, 15, 8⟩
def MEAS_SRC_ADDR : RegField := ⟨.MEAS_SRC, 31, 3⟩
def MEAS_CTRL_GO : RegField := ⟨.MEAS_CTRL, 31, 31⟩
def XSPI_BUF_DATA : RegField := ⟨.XSPI_BUF, 31, 0⟩
def BOOT_IDPUB_DATA : RegField := ⟨.BOOT_IDPUB, 31, 0⟩
def SYS_ID_PART : RegField := ⟨.SYS_ID, 15, 0⟩
def SYS_ID_STEP : RegField := ⟨.SYS_ID, 23, 16⟩
def SYS_ID_VENDOR : RegField := ⟨.SYS_ID, 31, 24⟩
def SYS_STRAPS_CHIPID : RegField := ⟨.SYS_STRAPS, 3, 0⟩
def SYS_STRAPS_BOOTSRC : RegField := ⟨.SYS_STRAPS, 5, 4⟩
def SYS_STRAPS_BOOTOCT : RegField := ⟨.SYS_STRAPS, 6, 6⟩
def SYS_RST_WARM : RegField := ⟨.SYS_RST, 0, 0⟩
def SYS_RST_KEY : RegField := ⟨.SYS_RST, 15, 8⟩
def SYS_CAUSE_POWER_ON : RegField := ⟨.SYS_CAUSE, 0, 0⟩
def SYS_CAUSE_PIN : RegField := ⟨.SYS_CAUSE, 1, 1⟩
def SYS_CAUSE_SOFTWARE : RegField := ⟨.SYS_CAUSE, 2, 2⟩
def SYS_CAUSE_JTAG : RegField := ⟨.SYS_CAUSE, 3, 3⟩
def SYS_WARMS_COUNT : RegField := ⟨.SYS_WARMS, 31, 0⟩
def SYS_SCRATCH_DATA : RegField := ⟨.SYS_SCRATCH, 31, 0⟩
def TST_CTRL_AUTO_AUDIT : RegField := ⟨.TST_CTRL, 0, 0⟩
def TST_CTRL_SLICE_EN : RegField := ⟨.TST_CTRL, 1, 1⟩
def TST_CTRL_INJ_EN : RegField := ⟨.TST_CTRL, 2, 2⟩
def TST_STATUS_AUDIT_BUSY : RegField := ⟨.TST_STATUS, 0, 0⟩
def TST_STATUS_AUDIT_CORE : RegField := ⟨.TST_STATUS, 12, 8⟩
def TST_STATUS_SLICE_BUSY : RegField := ⟨.TST_STATUS, 16, 16⟩
def TST_STATUS_SLICE_KIND : RegField := ⟨.TST_STATUS, 18, 17⟩
def TST_EVT_AUDIT_PASS : RegField := ⟨.TST_EVT, 0, 0⟩
def TST_EVT_AUDIT_FAIL : RegField := ⟨.TST_EVT, 1, 1⟩
def TST_EVT_DEFERRED : RegField := ⟨.TST_EVT, 2, 2⟩
def TST_EVT_SLICE_FAIL : RegField := ⟨.TST_EVT, 3, 3⟩
def TST_EVT_LOG_LOST : RegField := ⟨.TST_EVT, 4, 4⟩
def TST_EVT_REJECT : RegField := ⟨.TST_EVT, 5, 5⟩
def TST_IEN_IEN : RegField := ⟨.TST_IEN, 5, 0⟩
def TST_AUDIT_MASK_MASK : RegField := ⟨.TST_AUDIT_MASK, 31, 0⟩
def TST_AUDIT_REQ_CORE : RegField := ⟨.TST_AUDIT_REQ, 4, 0⟩
def TST_AUDIT_REQ_FORCE : RegField := ⟨.TST_AUDIT_REQ, 8, 8⟩
def TST_AUDIT_REQ_GO : RegField := ⟨.TST_AUDIT_REQ, 31, 31⟩
def TST_SAVE_ADDR : RegField := ⟨.TST_SAVE, 24, 8⟩
def TST_AUDIT_LAST_CORE : RegField := ⟨.TST_AUDIT_LAST, 4, 0⟩
def TST_AUDIT_LAST_PASS : RegField := ⟨.TST_AUDIT_LAST, 8, 8⟩
def TST_AUDIT_LAST_SEQ : RegField := ⟨.TST_AUDIT_LAST, 31, 16⟩
def TST_AUDIT_CNT_COUNT : RegField := ⟨.TST_AUDIT_CNT, 31, 0⟩
def TST_DEFER_CNT_COUNT : RegField := ⟨.TST_DEFER_CNT, 31, 0⟩
def TST_SKIP_CNT_COUNT : RegField := ⟨.TST_SKIP_CNT, 31, 0⟩
def TST_SLICE_SLICE_US : RegField := ⟨.TST_SLICE, 7, 0⟩
def TST_SLICE_MASK : RegField := ⟨.TST_SLICE, 10, 8⟩
def FLT_REC_WORD : RegField := ⟨.FLT_REC, 31, 0⟩
def FLT_POP_POP : RegField := ⟨.FLT_POP, 0, 0⟩
def FLT_STATUS_COUNT : RegField := ⟨.FLT_STATUS, 6, 0⟩
def FLT_LOST_COUNT : RegField := ⟨.FLT_LOST, 31, 0⟩
def FLT_CNT_COUNT : RegField := ⟨.FLT_CNT, 31, 0⟩
def TST_INJ_CTRL_KIND : RegField := ⟨.TST_INJ_CTRL, 1, 0⟩
def TST_INJ_CTRL_ARMED : RegField := ⟨.TST_INJ_CTRL, 30, 30⟩
def TST_INJ_CTRL_ARM : RegField := ⟨.TST_INJ_CTRL, 31, 31⟩
def TST_INJ_ADDR_LO_ADDR : RegField := ⟨.TST_INJ_ADDR_LO, 31, 2⟩
def TST_INJ_ADDR_HI_ADDR : RegField := ⟨.TST_INJ_ADDR_HI, 7, 0⟩
def TST_INJ_PARAM_BIT0 : RegField := ⟨.TST_INJ_PARAM, 5, 0⟩
def TST_INJ_PARAM_BIT1 : RegField := ⟨.TST_INJ_PARAM, 13, 8⟩
def TST_INJ_PARAM_CORE : RegField := ⟨.TST_INJ_PARAM, 20, 16⟩
def TST_INJ_DUR_US : RegField := ⟨.TST_INJ_DUR, 15, 0⟩
def TST_INJ_CNT_COUNT : RegField := ⟨.TST_INJ_CNT, 31, 0⟩
def CORE_CTRL_START : RegField := ⟨.CORE_CTRL, 0, 0⟩
def CORE_CTRL_HALT : RegField := ⟨.CORE_CTRL, 1, 1⟩
def CORE_CTRL_STOP : RegField := ⟨.CORE_CTRL, 2, 2⟩
def CORE_CTRL_WITHDRAW : RegField := ⟨.CORE_CTRL, 3, 3⟩
def CORE_CTRL_RESTORE : RegField := ⟨.CORE_CTRL, 4, 4⟩
def CORE_CTRL_CHAIN_CUT : RegField := ⟨.CORE_CTRL, 5, 5⟩
def CORE_STATE_STATE : RegField := ⟨.CORE_STATE, 2, 0⟩
def CORE_STATE_CAUSE : RegField := ⟨.CORE_STATE, 6, 4⟩
def CORE_STATE_FETCH_BLOCKED : RegField := ⟨.CORE_STATE, 8, 8⟩
def CORE_STATE_EXEC_BLOCKED : RegField := ⟨.CORE_STATE, 9, 9⟩
def CORE_BIND_KNOT : RegField := ⟨.CORE_BIND, 13, 0⟩
def CORE_BIND_VALID : RegField := ⟨.CORE_BIND, 15, 15⟩
def CORE_BIND_SKEIN : RegField := ⟨.CORE_BIND, 20, 16⟩
def CORE_BIND_STAGE : RegField := ⟨.CORE_BIND, 25, 21⟩
def CORE_BIND_STREAM : RegField := ⟨.CORE_BIND, 27, 26⟩
def CORE_EVT_HALTED : RegField := ⟨.CORE_EVT, 0, 0⟩
def CORE_EVT_FAULT : RegField := ⟨.CORE_EVT, 1, 1⟩
def CORE_EVT_CFG_REJECT : RegField := ⟨.CORE_EVT, 2, 2⟩
def CORE_EVT_CHAIN_STALL : RegField := ⟨.CORE_EVT, 3, 3⟩
def CORE_EVT_CHAIN_LOCAL : RegField := ⟨.CORE_EVT, 4, 4⟩
def CORE_EVT_CUT : RegField := ⟨.CORE_EVT, 5, 5⟩
def CORE_IEN_IEN : RegField := ⟨.CORE_IEN, 5, 0⟩
def CORE_FAULT_CODE : RegField := ⟨.CORE_FAULT, 7, 0⟩
def CORE_FAULT_PC : RegField := ⟨.CORE_FAULT, 20, 8⟩
def CORE_FAULT_VALID : RegField := ⟨.CORE_FAULT, 31, 31⟩
def CORE_PC_FETCH_PC : RegField := ⟨.CORE_PC, 12, 0⟩
def CORE_PC_EXEC_PC : RegField := ⟨.CORE_PC, 28, 16⟩
def QPRI_PRI0 : RegField := ⟨.QPRI, 2, 0⟩
def QPRI_PRI1 : RegField := ⟨.QPRI, 5, 3⟩
def QPRI_PRI2 : RegField := ⟨.QPRI, 8, 6⟩
def QPRI_PRI3 : RegField := ⟨.QPRI, 11, 9⟩
def QPRI_PRI4 : RegField := ⟨.QPRI, 14, 12⟩
def QPRI_PRI5 : RegField := ⟨.QPRI, 17, 15⟩
def QPRI_PRI6 : RegField := ⟨.QPRI, 20, 18⟩
def QPRI_PRI7 : RegField := ⟨.QPRI, 23, 21⟩
def CHAIN_CFG_MEMBER : RegField := ⟨.CHAIN_CFG, 0, 0⟩
def CHAIN_CFG_SOURCE : RegField := ⟨.CHAIN_CFG, 1, 1⟩
def CHAIN_CFG_NEXT_VALID : RegField := ⟨.CHAIN_CFG, 2, 2⟩
def CHAIN_CFG_PRED_VALID : RegField := ⟨.CHAIN_CFG, 3, 3⟩
def CHAIN_CFG_PRED : RegField := ⟨.CHAIN_CFG, 12, 8⟩
def CHAIN_CFG_NEXT : RegField := ⟨.CHAIN_CFG, 20, 16⟩
def CHAIN_CFG_CHAIN_ID : RegField := ⟨.CHAIN_CFG, 27, 24⟩
def CHAIN_STATUS_SKID : RegField := ⟨.CHAIN_STATUS, 1, 0⟩
def CHAIN_STATUS_HEAD : RegField := ⟨.CHAIN_STATUS, 2, 2⟩
def CHAIN_STATUS_TAIL : RegField := ⟨.CHAIN_STATUS, 3, 3⟩
def CHAIN_STATUS_SEND_WAIT : RegField := ⟨.CHAIN_STATUS, 4, 4⟩
def CHAIN_STATUS_RECV_WAIT : RegField := ⟨.CHAIN_STATUS, 5, 5⟩
def CHAIN_TAG_EXPECT : RegField := ⟨.CHAIN_TAG, 31, 0⟩
def CHAIN_STALL_CNT_COUNT : RegField := ⟨.CHAIN_STALL_CNT, 31, 0⟩
def CHAIN_LOCAL_CNT_COUNT : RegField := ⟨.CHAIN_LOCAL_CNT, 31, 0⟩
def HS_EXEC_COUNT : RegField := ⟨.HS_EXEC, 31, 0⟩
def BLOCK_TIME_NS : RegField := ⟨.BLOCK_TIME, 31, 0⟩
def DIGEST_LO_VALUE : RegField := ⟨.DIGEST_LO, 31, 0⟩
def DIGEST_HI_VALUE : RegField := ⟨.DIGEST_HI, 31, 0⟩
def QOCC_WORDS : RegField := ⟨.QOCC, 12, 0⟩
def QOCC_ENTRIES : RegField := ⟨.QOCC, 22, 16⟩
def QOCC_DIR : RegField := ⟨.QOCC, 24, 24⟩
def PKT_INDEX_INDEX : RegField := ⟨.PKT_INDEX, 12, 0⟩
def PKT_DATA_LO_DATA : RegField := ⟨.PKT_DATA_LO, 31, 0⟩
def PKT_DATA_HI_DATA : RegField := ⟨.PKT_DATA_HI, 31, 0⟩
def PKT_SRC_LO_ADDR : RegField := ⟨.PKT_SRC_LO, 31, 2⟩
def PKT_SRC_HI_ADDR : RegField := ⟨.PKT_SRC_HI, 7, 0⟩
def PKT_LOAD_COUNT : RegField := ⟨.PKT_LOAD, 13, 0⟩
def PKT_LOAD_GO : RegField := ⟨.PKT_LOAD, 31, 31⟩
def PKT_STATUS_BUSY : RegField := ⟨.PKT_STATUS, 0, 0⟩
def PKT_STATUS_DONE : RegField := ⟨.PKT_STATUS, 1, 1⟩
def PKT_STATUS_ERR : RegField := ⟨.PKT_STATUS, 2, 2⟩
def PKT_STATUS_REJECT : RegField := ⟨.PKT_STATUS, 3, 3⟩
def PKT_CRC_CRC : RegField := ⟨.PKT_CRC, 31, 0⟩
def STR_STATE_STATE : RegField := ⟨.STR_STATE, 1, 0⟩
def STR_STATE_QUEUE : RegField := ⟨.STR_STATE, 4, 2⟩
def STR_STATE_MODE : RegField := ⟨.STR_STATE, 6, 5⟩
def STR_STATE_POISONED : RegField := ⟨.STR_STATE, 7, 7⟩
def STR_LEFT_ENTRIES : RegField := ⟨.STR_LEFT, 31, 0⟩
def STR_REARM_COUNT : RegField := ⟨.STR_REARM, 31, 0⟩
def STR_ARMS_COUNT : RegField := ⟨.STR_ARMS, 31, 0⟩
def STR_ACC_COUNT : RegField := ⟨.STR_ACC, 31, 0⟩
def RING_LO_ADDR : RegField := ⟨.RING_LO, 31, 2⟩
def RING_HI_ADDR : RegField := ⟨.RING_HI, 7, 0⟩
def RING_HI_SLOTS : RegField := ⟨.RING_HI, 13, 8⟩
def RING_HI_VALID : RegField := ⟨.RING_HI, 31, 31⟩
def RING_STRIDE_BYTES : RegField := ⟨.RING_STRIDE, 15, 0⟩
def SLOT_WDOG_US : RegField := ⟨.SLOT_WDOG, 9, 0⟩
def SLOT_EVT_TIMEOUT : RegField := ⟨.SLOT_EVT, 0, 0⟩
def SLOT_EVT_POISON : RegField := ⟨.SLOT_EVT, 1, 1⟩
def SLOT_EVT_REARM_OVER : RegField := ⟨.SLOT_EVT, 2, 2⟩
def SLOT_EVT_CUT_DONE : RegField := ⟨.SLOT_EVT, 3, 3⟩
def SLOT_IEN_IEN : RegField := ⟨.SLOT_IEN, 3, 0⟩
def SLOT_TAINT_IN : RegField := ⟨.SLOT_TAINT, 15, 0⟩
def SLOT_TAINT_OUT : RegField := ⟨.SLOT_TAINT, 31, 16⟩
def SLOT_TIMEOUT_CNT_COUNT : RegField := ⟨.SLOT_TIMEOUT_CNT, 31, 0⟩
def SLOT_POISON_CNT_COUNT : RegField := ⟨.SLOT_POISON_CNT, 31, 0⟩
def SLOT_FAULT_CODE : RegField := ⟨.SLOT_FAULT, 7, 0⟩
def SLOT_FAULT_RING : RegField := ⟨.SLOT_FAULT, 11, 8⟩
def SLOT_FAULT_SLOT : RegField := ⟨.SLOT_FAULT, 17, 12⟩
def SLOT_FAULT_INSTR : RegField := ⟨.SLOT_FAULT, 19, 18⟩
def SLOT_FAULT_VALID : RegField := ⟨.SLOT_FAULT, 31, 31⟩
def RING_CUT_RING : RegField := ⟨.RING_CUT, 3, 0⟩
def RING_CUT_SLOT : RegField := ⟨.RING_CUT, 9, 4⟩
def RING_CUT_ALL : RegField := ⟨.RING_CUT, 10, 10⟩
def RING_CUT_BUSY : RegField := ⟨.RING_CUT, 30, 30⟩
def RING_CUT_GO : RegField := ⟨.RING_CUT, 31, 31⟩
def SNK_CTRL_EN : RegField := ⟨.SNK_CTRL, 0, 0⟩
def SNK_CTRL_MAX_RATE : RegField := ⟨.SNK_CTRL, 3, 1⟩
def SNK_CTRL_DSC_EN : RegField := ⟨.SNK_CTRL, 4, 4⟩
def SNK_CTRL_HDCP_EN : RegField := ⟨.SNK_CTRL, 5, 5⟩
def SNK_STATUS_RATE : RegField := ⟨.SNK_STATUS, 2, 0⟩
def SNK_STATUS_VIDEO : RegField := ⟨.SNK_STATUS, 3, 3⟩
def SNK_STATUS_ENCRYPTED : RegField := ⟨.SNK_STATUS, 4, 4⟩
def SNK_STATUS_DSC : RegField := ⟨.SNK_STATUS, 5, 5⟩
def SNK_STATUS_ENC : RegField := ⟨.SNK_STATUS, 7, 6⟩
def SNK_STATUS_BPC : RegField := ⟨.SNK_STATUS, 9, 8⟩
def SNK_STATUS_TYPE1 : RegField := ⟨.SNK_STATUS, 10, 10⟩
def SNK_TIMING_HACT : RegField := ⟨.SNK_TIMING, 12, 0⟩
def SNK_TIMING_VACT : RegField := ⟨.SNK_TIMING, 28, 16⟩
def SNK_PERIOD_NS : RegField := ⟨.SNK_PERIOD, 31, 0⟩
def SNK_COLOR_VSC : RegField := ⟨.SNK_COLOR, 23, 0⟩
def SNK_COLOR_VALID : RegField := ⟨.SNK_COLOR, 31, 31⟩
def SNK_LBUF_DEPTH : RegField := ⟨.SNK_LBUF, 5, 0⟩
def SNK_LBUF_BASE : RegField := ⟨.SNK_LBUF, 23, 8⟩
def SNK_EVT_LINK : RegField := ⟨.SNK_EVT, 0, 0⟩
def SNK_EVT_FORMAT : RegField := ⟨.SNK_EVT, 1, 1⟩
def SNK_EVT_FRAME_BAD : RegField := ⟨.SNK_EVT, 2, 2⟩
def SNK_EVT_OVERFLOW : RegField := ⟨.SNK_EVT, 3, 3⟩
def SNK_EVT_HDCP : RegField := ⟨.SNK_EVT, 4, 4⟩
def SNK_EVT_VIDEO : RegField := ⟨.SNK_EVT, 5, 5⟩
def SNK_IEN_IEN : RegField := ⟨.SNK_IEN, 5, 0⟩
def SNK_FRAMES_COUNT : RegField := ⟨.SNK_FRAMES, 31, 0⟩
def SNK_BAD_COUNT : RegField := ⟨.SNK_BAD, 31, 0⟩
def SNK_OVF_COUNT : RegField := ⟨.SNK_OVF, 31, 0⟩
def SNK_SDP_DROP_COUNT : RegField := ⟨.SNK_SDP_DROP, 31, 0⟩
def INP_CTRL_EN : RegField := ⟨.INP_CTRL, 0, 0⟩
def INP_CTRL_SRC : RegField := ⟨.INP_CTRL, 1, 1⟩
def INP_CTRL_MODE : RegField := ⟨.INP_CTRL, 2, 2⟩
def INP_CTRL_PSPACE : RegField := ⟨.INP_CTRL, 3, 3⟩
def INP_CTRL_TFMT : RegField := ⟨.INP_CTRL, 4, 4⟩
def INP_CTRL_TENS : RegField := ⟨.INP_CTRL, 5, 5⟩
def INP_MAT_M : RegField := ⟨.INP_MAT, 15, 0⟩
def INP_OFS_PRE : RegField := ⟨.INP_OFS, 12, 0⟩
def INP_OFS_POST : RegField := ⟨.INP_OFS, 28, 16⟩
def INP_SUBST0_C0 : RegField := ⟨.INP_SUBST0, 11, 0⟩
def INP_SUBST0_C1 : RegField := ⟨.INP_SUBST0, 27, 16⟩
def INP_SUBST1_C2 : RegField := ⟨.INP_SUBST1, 11, 0⟩
def INP_SUBST1_CUSTOM : RegField := ⟨.INP_SUBST1, 31, 31⟩
def INP_RING_BASE_ADDR : RegField := ⟨.INP_RING_BASE, 31, 8⟩
def INP_RING_CFG_SLOTS : RegField := ⟨.INP_RING_CFG, 5, 0⟩
def INP_RING_CFG_D : RegField := ⟨.INP_RING_CFG, 13, 8⟩
def INP_SLOT_STRIDE_BYTES : RegField := ⟨.INP_SLOT_STRIDE, 31, 8⟩
def INP_PLANE_STRIDE_BYTES : RegField := ⟨.INP_PLANE_STRIDE, 31, 8⟩
def INP_COUNT_BASE_ADDR : RegField := ⟨.INP_COUNT_BASE, 31, 2⟩
def INP_COUNT_STRIDE_BYTES : RegField := ⟨.INP_COUNT_STRIDE, 15, 0⟩
def INP_REC_ADDR : RegField := ⟨.INP_REC, 31, 5⟩
def INP_MAP_A_ADDR : RegField := ⟨.INP_MAP_A, 31, 8⟩
def INP_MAP_B_ADDR : RegField := ⟨.INP_MAP_B, 31, 8⟩
def INP_BYP_HF : RegField := ⟨.INP_BYP, 1, 0⟩
def INP_BYP_VF : RegField := ⟨.INP_BYP, 3, 2⟩
def INP_BYP_FILTER : RegField := ⟨.INP_BYP, 4, 4⟩
def INP_BYP_BASE : RegField := ⟨.INP_BYP, 23, 8⟩
def INP_EVT_MISSING : RegField := ⟨.INP_EVT, 0, 0⟩
def INP_EVT_OVERRUN : RegField := ⟨.INP_EVT, 1, 1⟩
def INP_IEN_IEN : RegField := ⟨.INP_IEN, 1, 0⟩
def INP_MISSING_COUNT : RegField := ⟨.INP_MISSING, 31, 0⟩
def INP_OVR_COUNT : RegField := ⟨.INP_OVR, 31, 0⟩
def MOT_CTRL_EN : RegField := ⟨.MOT_CTRL, 0, 0⟩
def MOT_CTRL_REF_FMT : RegField := ⟨.MOT_CTRL, 1, 1⟩
def MOT_CTRL_PYR_FIRST : RegField := ⟨.MOT_CTRL, 6, 4⟩
def MOT_CTRL_PYR_LAST : RegField := ⟨.MOT_CTRL, 10, 8⟩
def MOT_CTRL_PHASE_DIV : RegField := ⟨.MOT_CTRL, 20, 16⟩
def MOT_HOLD_MS : RegField := ⟨.MOT_HOLD, 9, 0⟩
def MOT_REF_LO_ADDR : RegField := ⟨.MOT_REF_LO, 31, 12⟩
def MOT_REF_HI_ADDR : RegField := ⟨.MOT_REF_HI, 7, 0⟩
def MOT_REF_STRIDE_PAGES : RegField := ⟨.MOT_REF_STRIDE, 19, 0⟩
def MOT_PYR_BASE_ADDR : RegField := ⟨.MOT_PYR_BASE, 31, 8⟩
def MOT_PYR_STRIDE_BYTES : RegField := ⟨.MOT_PYR_STRIDE, 31, 8⟩
def MOT_STATUS_VALID : RegField := ⟨.MOT_STATUS, 3, 0⟩
def MOT_STATUS_WIDX : RegField := ⟨.MOT_STATUS, 5, 4⟩
def MOT_STATUS_WACTIVE : RegField := ⟨.MOT_STATUS, 6, 6⟩
def MOT_STATUS_A : RegField := ⟨.MOT_STATUS, 9, 8⟩
def MOT_STATUS_B : RegField := ⟨.MOT_STATUS, 13, 12⟩
def MOT_STATUS_HOLD : RegField := ⟨.MOT_STATUS, 16, 16⟩
def MOT_STATUS_TRANSP : RegField := ⟨.MOT_STATUS, 17, 17⟩
def MOT_EVT_DROP : RegField := ⟨.MOT_EVT, 0, 0⟩
def MOT_EVT_HOLD_START : RegField := ⟨.MOT_EVT, 1, 1⟩
def MOT_EVT_HOLD_EXPIRED : RegField := ⟨.MOT_EVT, 2, 2⟩
def MOT_IEN_IEN : RegField := ⟨.MOT_IEN, 2, 0⟩
def MOT_REFS_COUNT : RegField := ⟨.MOT_REFS, 31, 0⟩
def MOT_DROPS_COUNT : RegField := ⟨.MOT_DROPS, 31, 0⟩
def MOT_BW_READ : RegField := ⟨.MOT_BW, 15, 0⟩
def MOT_BW_WRITE : RegField := ⟨.MOT_BW, 31, 16⟩
def CMP_COMMIT_MASK : RegField := ⟨.CMP_COMMIT, 12, 0⟩
def CMP_COMMIT_EPOCH : RegField := ⟨.CMP_COMMIT, 16, 16⟩
def CMP_COMMIT_CANCEL : RegField := ⟨.CMP_COMMIT, 30, 30⟩
def CMP_COMMIT_GO : RegField := ⟨.CMP_COMMIT, 31, 31⟩
def CMP_STATUS_PENDING : RegField := ⟨.CMP_STATUS, 0, 0⟩
def CMP_STATUS_HELD : RegField := ⟨.CMP_STATUS, 1, 1⟩
def CMP_STATUS_HELD_FRAMES : RegField := ⟨.CMP_STATUS, 15, 8⟩
def CMP_EVT_APPLIED : RegField := ⟨.CMP_EVT, 0, 0⟩
def CMP_EVT_REJECT : RegField := ⟨.CMP_EVT, 1, 1⟩
def CMP_EVT_FENCE_LATE : RegField := ⟨.CMP_EVT, 2, 2⟩
def CMP_EVT_UNDERRUN : RegField := ⟨.CMP_EVT, 3, 3⟩
def CMP_EVT_SIZE : RegField := ⟨.CMP_EVT, 4, 4⟩
def CMP_EVT_HDCP_BLOCK : RegField := ⟨.CMP_EVT, 5, 5⟩
def CMP_EVT_SHADOW_REJECT : RegField := ⟨.CMP_EVT, 6, 6⟩
def CMP_IEN_IEN : RegField := ⟨.CMP_IEN, 6, 0⟩
def CMP_APPLY_SEQ_SEQ : RegField := ⟨.CMP_APPLY_SEQ, 31, 0⟩
def CMP_BG0_C0 : RegField := ⟨.CMP_BG0, 11, 0⟩
def CMP_BG0_C1 : RegField := ⟨.CMP_BG0, 27, 16⟩
def CMP_BG1_C2 : RegField := ⟨.CMP_BG1, 11, 0⟩
def CMP_BG1_PSPACE : RegField := ⟨.CMP_BG1, 16, 16⟩
def CMP_TKO_BG0_C0 : RegField := ⟨.CMP_TKO_BG0, 11, 0⟩
def CMP_TKO_BG0_C1 : RegField := ⟨.CMP_TKO_BG0, 27, 16⟩
def CMP_TKO_BG1_C2 : RegField := ⟨.CMP_TKO_BG1, 11, 0⟩
def CMP_TKO_POS_X : RegField := ⟨.CMP_TKO_POS, 12, 0⟩
def CMP_TKO_POS_Y : RegField := ⟨.CMP_TKO_POS, 28, 16⟩
def SMAT_C_M0 : RegField := ⟨.SMAT_C, 15, 0⟩
def SMAT_C_M1 : RegField := ⟨.SMAT_C, 31, 16⟩
def SMAT_POST0_POST0 : RegField := ⟨.SMAT_POST0, 12, 0⟩
def SMAT_POST0_POST1 : RegField := ⟨.SMAT_POST0, 28, 16⟩
def SMAT_POST1_POST2 : RegField := ⟨.SMAT_POST1, 12, 0⟩
def UNDER_CNT_COUNT : RegField := ⟨.UNDER_CNT, 31, 0⟩
def ER_BASE_BASE : RegField := ⟨.ER_BASE, 15, 0⟩
def ER_CFG_SLOTS : RegField := ⟨.ER_CFG, 5, 0⟩
def ER_SLOT_STRIDE_STRIDE : RegField := ⟨.ER_SLOT_STRIDE, 15, 0⟩
def ER_PLANE_STRIDE_STRIDE : RegField := ⟨.ER_PLANE_STRIDE, 15, 0⟩
def ER_COUNT_ADDR : RegField := ⟨.ER_COUNT, 23, 2⟩
def ER_CSTRIDE_BYTES : RegField := ⟨.ER_CSTRIDE, 15, 0⟩
def ER_CSKEIN_BYTES : RegField := ⟨.ER_CSKEIN, 23, 2⟩
def LAY_CTRL_EN : RegField := ⟨.LAY_CTRL, 0, 0⟩
def LAY_CTRL_KIND : RegField := ⟨.LAY_CTRL, 2, 1⟩
def LAY_CTRL_FORMAT : RegField := ⟨.LAY_CTRL, 6, 3⟩
def LAY_CTRL_DEPTH : RegField := ⟨.LAY_CTRL, 8, 7⟩
def LAY_CTRL_UBSAL : RegField := ⟨.LAY_CTRL, 9, 9⟩
def LAY_CTRL_SCALE : RegField := ⟨.LAY_CTRL, 11, 10⟩
def LAY_CTRL_MATRIX : RegField := ⟨.LAY_CTRL, 13, 12⟩
def LAY_CTRL_PREMUL : RegField := ⟨.LAY_CTRL, 14, 14⟩
def LAY_CTRL_HITCH_EN : RegField := ⟨.LAY_CTRL, 15, 15⟩
def LAY_CTRL_POLICY : RegField := ⟨.LAY_CTRL, 17, 16⟩
def LAY_CTRL_GALPHA : RegField := ⟨.LAY_CTRL, 31, 24⟩
def LAY_POS_X : RegField := ⟨.LAY_POS, 12, 0⟩
def LAY_POS_Y : RegField := ⟨.LAY_POS, 28, 16⟩
def LAY_SIZE_W : RegField := ⟨.LAY_SIZE, 12, 0⟩
def LAY_SIZE_H : RegField := ⟨.LAY_SIZE, 28, 16⟩
def LAY_ADDR_ADDR : RegField := ⟨.LAY_ADDR, 31, 0⟩
def LAY_CADDR_ADDR : RegField := ⟨.LAY_CADDR, 31, 0⟩
def LAY_C2ADDR_ADDR : RegField := ⟨.LAY_C2ADDR, 31, 0⟩
def LAY_STRIDE_BYTES : RegField := ⟨.LAY_STRIDE, 19, 0⟩
def LAY_CSTRIDE_BYTES : RegField := ⟨.LAY_CSTRIDE, 19, 0⟩
def LAY_RING_BASE : RegField := ⟨.LAY_RING, 15, 0⟩
def LAY_RING_FETCH : RegField := ⟨.LAY_RING, 20, 16⟩
def LAY_HITCH_ADDR : RegField := ⟨.LAY_HITCH, 23, 2⟩
def LAY_HITCH_VAL_VALUE : RegField := ⟨.LAY_HITCH_VAL, 31, 0⟩
def LUT_CTRL_EN : RegField := ⟨.LUT_CTRL, 2, 0⟩
def LUT_CTRL_BANK : RegField := ⟨.LUT_CTRL, 6, 4⟩
def LUT_STATUS_EN : RegField := ⟨.LUT_STATUS, 2, 0⟩
def LUT_STATUS_BANK : RegField := ⟨.LUT_STATUS, 6, 4⟩
def LUT_SEL_LUT : RegField := ⟨.LUT_SEL, 1, 0⟩
def LUT_SEL_BANK : RegField := ⟨.LUT_SEL, 2, 2⟩
def LUT_SEL_COMP : RegField := ⟨.LUT_SEL, 4, 3⟩
def LUT_SEL_INDEX : RegField := ⟨.LUT_SEL, 26, 16⟩
def LUT_DATA_VALUE : RegField := ⟨.LUT_DATA, 12, 0⟩
def LUT_EVT_REJECT : RegField := ⟨.LUT_EVT, 0, 0⟩
def LUT_IEN_IEN : RegField := ⟨.LUT_IEN, 0, 0⟩
def CV_CTRL_EN : RegField := ⟨.CV_CTRL, 0, 0⟩
def CV_STATUS_EN : RegField := ⟨.CV_STATUS, 0, 0⟩
def CV_STATUS_LOAD_BUSY : RegField := ⟨.CV_STATUS, 1, 1⟩
def CV_SRC_ADDR : RegField := ⟨.CV_SRC, 31, 0⟩
def CV_DST_BLOCK : RegField := ⟨.CV_DST, 17, 0⟩
def CV_LOAD_BLOCKS : RegField := ⟨.CV_LOAD, 18, 0⟩
def CV_LOAD_GO : RegField := ⟨.CV_LOAD, 31, 31⟩
def CV_CRC_CRC : RegField := ⟨.CV_CRC, 31, 0⟩
def CV_EVT_LOAD_DONE : RegField := ⟨.CV_EVT, 0, 0⟩
def CV_EVT_LOAD_ERR : RegField := ⟨.CV_EVT, 1, 1⟩
def CV_IEN_IEN : RegField := ⟨.CV_IEN, 1, 0⟩
def TMG_CTRL_EN : RegField := ⟨.TMG_CTRL, 0, 0⟩
def TMG_CTRL_LOCK : RegField := ⟨.TMG_CTRL, 2, 1⟩
def TMG_CTRL_LPATH : RegField := ⟨.TMG_CTRL, 3, 3⟩
def TMG_CTRL_HPOL : RegField := ⟨.TMG_CTRL, 4, 4⟩
def TMG_CTRL_VPOL : RegField := ⟨.TMG_CTRL, 5, 5⟩
def TMG_CTRL_APPLY : RegField := ⟨.TMG_CTRL, 31, 31⟩
def TMG_H_HACT : RegField := ⟨.TMG_H, 12, 0⟩
def TMG_H_HTOTAL : RegField := ⟨.TMG_H, 28, 16⟩
def TMG_HS_HFP : RegField := ⟨.TMG_HS, 12, 0⟩
def TMG_HS_HSYNC : RegField := ⟨.TMG_HS, 28, 16⟩
def TMG_V_VACT : RegField := ⟨.TMG_V, 12, 0⟩
def TMG_V_VTOTAL : RegField := ⟨.TMG_V, 28, 16⟩
def TMG_VS_VFP : RegField := ⟨.TMG_VS, 12, 0⟩
def TMG_VS_VSYNC : RegField := ⟨.TMG_VS, 28, 16⟩
def TMG_PCLK_KHZ : RegField := ⟨.TMG_PCLK, 22, 0⟩
def TMG_LOCK_TARGET : RegField := ⟨.TMG_LOCK, 7, 0⟩
def TMG_LOCK_VFP_STEP : RegField := ⟨.TMG_LOCK, 15, 8⟩
def TMG_LOCK_TRIM_PPM : RegField := ⟨.TMG_LOCK, 25, 16⟩
def TMG_VFPMIN_LINES : RegField := ⟨.TMG_VFPMIN, 12, 0⟩
def TMG_STATUS_RUNNING : RegField := ⟨.TMG_STATUS, 0, 0⟩
def TMG_STATUS_LOCKED : RegField := ⟨.TMG_STATUS, 1, 1⟩
def TMG_STATUS_HOLDOVER : RegField := ⟨.TMG_STATUS, 2, 2⟩
def TMG_STATUS_LINE : RegField := ⟨.TMG_STATUS, 28, 16⟩
def TMG_ERR_ERR : RegField := ⟨.TMG_ERR, 15, 0⟩
def TMG_EVT_FRAME : RegField := ⟨.TMG_EVT, 0, 0⟩
def TMG_EVT_LOCK_GAINED : RegField := ⟨.TMG_EVT, 1, 1⟩
def TMG_EVT_LOCK_LOST : RegField := ⟨.TMG_EVT, 2, 2⟩
def TMG_EVT_REJECT : RegField := ⟨.TMG_EVT, 3, 3⟩
def TMG_IEN_IEN : RegField := ⟨.TMG_IEN, 3, 0⟩
def SRC_CTRL_EN : RegField := ⟨.SRC_CTRL, 0, 0⟩
def SRC_CTRL_MAX_RATE : RegField := ⟨.SRC_CTRL, 3, 1⟩
def SRC_CTRL_HDCP_EN : RegField := ⟨.SRC_CTRL, 4, 4⟩
def SRC_CTRL_MODE : RegField := ⟨.SRC_CTRL, 7, 6⟩
def SRC_FMT_ENC : RegField := ⟨.SRC_FMT, 1, 0⟩
def SRC_FMT_BPC : RegField := ⟨.SRC_FMT, 3, 2⟩
def SRC_FMT_DITHER : RegField := ⟨.SRC_FMT, 5, 4⟩
def SRC_DSC_EN : RegField := ⟨.SRC_DSC, 0, 0⟩
def SRC_DSC_BPP : RegField := ⟨.SRC_DSC, 13, 4⟩
def SRC_DSC_SLICES : RegField := ⟨.SRC_DSC, 20, 16⟩
def SRC_DSC_BLOCK_PRED : RegField := ⟨.SRC_DSC, 24, 24⟩
def SRC_VSC_VSC : RegField := ⟨.SRC_VSC, 23, 0⟩
def SRC_MAT_M0 : RegField := ⟨.SRC_MAT, 15, 0⟩
def SRC_MAT_M1 : RegField := ⟨.SRC_MAT, 31, 16⟩
def SRC_PRE0_P0 : RegField := ⟨.SRC_PRE0, 12, 0⟩
def SRC_PRE0_P1 : RegField := ⟨.SRC_PRE0, 28, 16⟩
def SRC_PRE1_P2 : RegField := ⟨.SRC_PRE1, 12, 0⟩
def SRC_POST0_P0 : RegField := ⟨.SRC_POST0, 12, 0⟩
def SRC_POST0_P1 : RegField := ⟨.SRC_POST0, 28, 16⟩
def SRC_POST1_P2 : RegField := ⟨.SRC_POST1, 12, 0⟩
def SRC_STATUS_RATE : RegField := ⟨.SRC_STATUS, 2, 0⟩
def SRC_STATUS_HPD : RegField := ⟨.SRC_STATUS, 3, 3⟩
def SRC_STATUS_AUTH : RegField := ⟨.SRC_STATUS, 4, 4⟩
def SRC_STATUS_ENCRYPTING : RegField := ⟨.SRC_STATUS, 5, 5⟩
def SRC_STATUS_TYPE1_OK : RegField := ⟨.SRC_STATUS, 6, 6⟩
def SRC_STATUS_DSC : RegField := ⟨.SRC_STATUS, 7, 7⟩
def SRC_STATUS_OVERRATE : RegField := ⟨.SRC_STATUS, 8, 8⟩
def SRC_EVT_LINK : RegField := ⟨.SRC_EVT, 0, 0⟩
def SRC_EVT_HDCP : RegField := ⟨.SRC_EVT, 1, 1⟩
def SRC_EVT_OVERRATE : RegField := ⟨.SRC_EVT, 2, 2⟩
def SRC_IEN_IEN : RegField := ⟨.SRC_IEN, 2, 0⟩
def GRD_EVT_MISMATCH : RegField := ⟨.GRD_EVT, 15, 0⟩
def GRD_EVT_RB_MISMATCH : RegField := ⟨.GRD_EVT, 17, 16⟩
def GRD_IEN_IEN : RegField := ⟨.GRD_IEN, 17, 0⟩
def RB_CTRL_EN : RegField := ⟨.RB_CTRL, 1, 0⟩
def RB_STATUS_LANES0 : RegField := ⟨.RB_STATUS, 3, 0⟩
def RB_STATUS_LANES1 : RegField := ⟨.RB_STATUS, 7, 4⟩
def RB_CNT0_COUNT : RegField := ⟨.RB_CNT0, 31, 0⟩
def RB_CNT1_COUNT : RegField := ⟨.RB_CNT1, 31, 0⟩
def GRD_CFG_EN : RegField := ⟨.GRD_CFG, 0, 0⟩
def GRD_CFG_PORT : RegField := ⟨.GRD_CFG, 1, 1⟩
def GRD_CFG_LEARN : RegField := ⟨.GRD_CFG, 2, 2⟩
def GRD_POS_X : RegField := ⟨.GRD_POS, 12, 0⟩
def GRD_POS_Y : RegField := ⟨.GRD_POS, 28, 16⟩
def GRD_SIZE_W : RegField := ⟨.GRD_SIZE, 12, 0⟩
def GRD_SIZE_H : RegField := ⟨.GRD_SIZE, 28, 16⟩
def GRD_EXP_CRC : RegField := ⟨.GRD_EXP, 31, 0⟩
def GRD_MEAS_CRC : RegField := ⟨.GRD_MEAS, 31, 0⟩
def GRD_CNT_COUNT : RegField := ⟨.GRD_CNT, 31, 0⟩
def PRT_CTRL_EN : RegField := ⟨.PRT_CTRL, 0, 0⟩
def PRT_CTRL_SPEEDS : RegField := ⟨.PRT_CTRL, 2, 1⟩
def PRT_CTRL_RESYNC : RegField := ⟨.PRT_CTRL, 31, 31⟩
def PRT_STATUS_PHY_UP : RegField := ⟨.PRT_STATUS, 0, 0⟩
def PRT_STATUS_SPEED : RegField := ⟨.PRT_STATUS, 1, 1⟩
def PRT_STATUS_MASTER : RegField := ⟨.PRT_STATUS, 2, 2⟩
def PRT_STATUS_PULET : RegField := ⟨.PRT_STATUS, 5, 4⟩
def PRT_MAC_LO_MAC : RegField := ⟨.PRT_MAC_LO, 31, 0⟩
def PRT_MAC_HI_MAC : RegField := ⟨.PRT_MAC_HI, 15, 0⟩
def PRT_PEER_LO_PEER : RegField := ⟨.PRT_PEER_LO, 31, 0⟩
def PRT_PEER_HI_PEER : RegField := ⟨.PRT_PEER_HI, 15, 0⟩
def PRT_LINK_RTO : RegField := ⟨.PRT_LINK, 9, 0⟩
def PRT_LINK_RETRY_LIM : RegField := ⟨.PRT_LINK, 20, 16⟩
def PRT_LINK_WIN : RegField := ⟨.PRT_LINK, 31, 24⟩
def PRT_EVT_LINK_UP : RegField := ⟨.PRT_EVT, 0, 0⟩
def PRT_EVT_LINK_DOWN : RegField := ⟨.PRT_EVT, 1, 1⟩
def PRT_EVT_SYNCED : RegField := ⟨.PRT_EVT, 2, 2⟩
def PRT_EVT_RETRY_EXHAUSTED : RegField := ⟨.PRT_EVT, 3, 3⟩
def PRT_IEN_IEN : RegField := ⟨.PRT_IEN, 3, 0⟩
def PRT_TXF_COUNT : RegField := ⟨.PRT_TXF, 31, 0⟩
def PRT_RXF_COUNT : RegField := ⟨.PRT_RXF, 31, 0⟩
def PRT_FCS_ERR_COUNT : RegField := ⟨.PRT_FCS_ERR, 31, 0⟩
def PRT_RETX_COUNT : RegField := ⟨.PRT_RETX, 31, 0⟩
def PRT_NOBUF_COUNT : RegField := ⟨.PRT_NOBUF, 31, 0⟩
def PRT_OTHER_COUNT : RegField := ⟨.PRT_OTHER, 31, 0⟩
def PRT_FI_CTRL_EN : RegField := ⟨.PRT_FI_CTRL, 0, 0⟩
def PRT_FI_CTRL_ACTION : RegField := ⟨.PRT_FI_CTRL, 3, 1⟩
def PRT_FI_CTRL_DIR : RegField := ⟨.PRT_FI_CTRL, 4, 4⟩
def PRT_FI_CTRL_MATCH : RegField := ⟨.PRT_FI_CTRL, 6, 5⟩
def PRT_FI_SEL_N : RegField := ⟨.PRT_FI_SEL, 15, 0⟩
def PRT_FI_SEL_MODE : RegField := ⟨.PRT_FI_SEL, 16, 16⟩
def PRT_FI_SEL_SEED : RegField := ⟨.PRT_FI_SEL, 31, 17⟩
def PRT_FI_PARAM_DELAY : RegField := ⟨.PRT_FI_PARAM, 9, 0⟩
def PRT_FI_PARAM_DEPTH : RegField := ⟨.PRT_FI_PARAM, 18, 16⟩
def PRT_FI_LIMIT_COUNT : RegField := ⟨.PRT_FI_LIMIT, 31, 0⟩
def PRT_FI_COUNT_COUNT : RegField := ⟨.PRT_FI_COUNT, 31, 0⟩
def PLT_CTRL_EN : RegField := ⟨.PLT_CTRL, 0, 0⟩
def PLT_CTRL_ETYPE : RegField := ⟨.PLT_CTRL, 31, 16⟩
def PLT_STATUS_CHIP : RegField := ⟨.PLT_STATUS, 3, 0⟩
def PLT_TXN_TMO_US : RegField := ⟨.PLT_TXN_TMO, 15, 0⟩
def PLT_MC_RTO : RegField := ⟨.PLT_MC, 15, 0⟩
def PLT_MC_RETRIES : RegField := ⟨.PLT_MC, 19, 16⟩
def PLT_BCAST_PORTS : RegField := ⟨.PLT_BCAST, 3, 0⟩
def PLT_MGMT_PEERS : RegField := ⟨.PLT_MGMT, 12, 0⟩
def PLT_EVT_E2E : RegField := ⟨.PLT_EVT, 0, 0⟩
def PLT_EVT_WIN_CLOSED : RegField := ⟨.PLT_EVT, 1, 1⟩
def PLT_EVT_WIN_DENIED : RegField := ⟨.PLT_EVT, 2, 2⟩
def PLT_EVT_WIN_CLOSED_DONE : RegField := ⟨.PLT_EVT, 3, 3⟩
def PLT_EVT_WIN_REJECT : RegField := ⟨.PLT_EVT, 4, 4⟩
def PLT_EVT_MCAST_DETACH : RegField := ⟨.PLT_EVT, 5, 5⟩
def PLT_IEN_IEN : RegField := ⟨.PLT_IEN, 5, 0⟩
def PLT_E2E_ERR_COUNT : RegField := ⟨.PLT_E2E_ERR, 31, 0⟩
def PLT_RELAY_COUNT : RegField := ⟨.PLT_RELAY, 31, 0⟩
def PLT_DISCARD_COUNT : RegField := ⟨.PLT_DISCARD, 31, 0⟩
def PLT_DMA_EVT_END : RegField := ⟨.PLT_DMA_EVT, 31, 0⟩
def PLT_DMA_IEN_IEN : RegField := ⟨.PLT_DMA_IEN, 31, 0⟩
def PLT_ROUTE_PORT : RegField := ⟨.PLT_ROUTE, 1, 0⟩
def PLT_ROUTE_VALID : RegField := ⟨.PLT_ROUTE, 31, 31⟩
def PLT_MCG_PORTS : RegField := ⟨.PLT_MCG, 3, 0⟩
def PLT_MCG_LOCAL : RegField := ⟨.PLT_MCG, 4, 4⟩
def WIN_SEL_WIN : RegField := ⟨.WIN_SEL, 7, 0⟩
def WIN_BASE_LO_ADDR : RegField := ⟨.WIN_BASE_LO, 31, 12⟩
def WIN_BASE_HI_ADDR : RegField := ⟨.WIN_BASE_HI, 7, 0⟩
def WIN_SIZE_PAGES : RegField := ⟨.WIN_SIZE, 19, 0⟩
def WIN_PEERS_PEERS : RegField := ⟨.WIN_PEERS, 12, 0⟩
def WIN_PEERS_RIGHTS : RegField := ⟨.WIN_PEERS, 18, 16⟩
def WIN_CTRL_OPEN : RegField := ⟨.WIN_CTRL, 0, 0⟩
def WIN_CTRL_CLOSE : RegField := ⟨.WIN_CTRL, 1, 1⟩
def WIN_STATUS_STATE : RegField := ⟨.WIN_STATUS, 1, 0⟩
def WIN_STATUS_GEN : RegField := ⟨.WIN_STATUS, 31, 16⟩
def WIN_CLOSED_CNT_COUNT : RegField := ⟨.WIN_CLOSED_CNT, 31, 0⟩
def WIN_DENIED_CNT_COUNT : RegField := ⟨.WIN_DENIED_CNT, 31, 0⟩
def WIN_OVERRUN_CNT_COUNT : RegField := ⟨.WIN_OVERRUN_CNT, 31, 0⟩
def DMA_CTRL_MODE : RegField := ⟨.DMA_CTRL, 1, 0⟩
def DMA_CTRL_ABORT : RegField := ⟨.DMA_CTRL, 30, 30⟩
def DMA_CTRL_GO : RegField := ⟨.DMA_CTRL, 31, 31⟩
def DMA_LOCAL_LO_ADDR : RegField := ⟨.DMA_LOCAL_LO, 31, 2⟩
def DMA_LOCAL_HI_ADDR : RegField := ⟨.DMA_LOCAL_HI, 7, 0⟩
def DMA_TARGET_CHIP : RegField := ⟨.DMA_TARGET, 3, 0⟩
def DMA_TARGET_HOST : RegField := ⟨.DMA_TARGET, 4, 4⟩
def DMA_TARGET_WIN : RegField := ⟨.DMA_TARGET, 15, 8⟩
def DMA_TARGET_GEN : RegField := ⟨.DMA_TARGET, 31, 16⟩
def DMA_ROFS_LO_OFS : RegField := ⟨.DMA_ROFS_LO, 31, 2⟩
def DMA_ROFS_HI_OFS : RegField := ⟨.DMA_ROFS_HI, 7, 0⟩
def DMA_LEN_BYTES : RegField := ⟨.DMA_LEN, 31, 0⟩
def DMA_STATUS_STATE : RegField := ⟨.DMA_STATUS, 1, 0⟩
def DMA_STATUS_CODE : RegField := ⟨.DMA_STATUS, 15, 8⟩
def DMA_DONE_BYTES : RegField := ⟨.DMA_DONE, 31, 0⟩
def DMA_MC_GROUP : RegField := ⟨.DMA_MC, 3, 0⟩
def DMA_MC_MEMBERS : RegField := ⟨.DMA_MC, 27, 16⟩
def DMA_MC_ATT_ATT : RegField := ⟨.DMA_MC_ATT, 11, 0⟩
def DMA_MC_FAIL_FAIL : RegField := ⟨.DMA_MC_FAIL, 11, 0⟩
def DMA_SPL_SRC_CORE : RegField := ⟨.DMA_SPL_SRC, 4, 0⟩
def DMA_SPL_SRC_RING : RegField := ⟨.DMA_SPL_SRC, 11, 8⟩
def DMA_SPL_SRC_PLANES : RegField := ⟨.DMA_SPL_SRC, 23, 16⟩
def DMA_SPL_SHAPE_BYTES : RegField := ⟨.DMA_SPL_SHAPE, 15, 0⟩
def DMA_SPL_SHAPE_NH : RegField := ⟨.DMA_SPL_SHAPE, 21, 16⟩
def DMA_SPL_SHAPE_DH : RegField := ⟨.DMA_SPL_SHAPE, 29, 24⟩
def DMA_SPL_STR_SSTR : RegField := ⟨.DMA_SPL_STR, 15, 0⟩
def DMA_SPL_STR_PSTR : RegField := ⟨.DMA_SPL_STR, 31, 16⟩
def DMA_SPL_FILL_OFS : RegField := ⟨.DMA_SPL_FILL, 31, 3⟩
def TIME_CTRL_SERVO_EN : RegField := ⟨.TIME_CTRL, 0, 0⟩
def TIME_CTRL_ROLE : RegField := ⟨.TIME_CTRL, 2, 1⟩
def TIME_CTRL_STEP_EN : RegField := ⟨.TIME_CTRL, 3, 3⟩
def TIME_CTRL_GPTP_EN : RegField := ⟨.TIME_CTRL, 4, 4⟩
def TIME_STATUS_SYNCED : RegField := ⟨.TIME_STATUS, 0, 0⟩
def TIME_STATUS_HOLDOVER : RegField := ⟨.TIME_STATUS, 1, 1⟩
def TIME_STATUS_SLAVE_PORT : RegField := ⟨.TIME_STATUS, 3, 2⟩
def TIME_STATUS_SLAVE_VALID : RegField := ⟨.TIME_STATUS, 4, 4⟩
def TIME_NOW_LO_NS : RegField := ⟨.TIME_NOW_LO, 31, 0⟩
def TIME_NOW_HI_NS : RegField := ⟨.TIME_NOW_HI, 31, 0⟩
def TIME_FRAC_FRAC : RegField := ⟨.TIME_FRAC, 15, 0⟩
def TIME_US_US : RegField := ⟨.TIME_US, 31, 0⟩
def TIME_STEP_LO_NS : RegField := ⟨.TIME_STEP_LO, 31, 0⟩
def TIME_STEP_HI_NS : RegField := ⟨.TIME_STEP_HI, 31, 0⟩
def TIME_RATE_RATE : RegField := ⟨.TIME_RATE, 31, 0⟩
def TIME_INTEG_I : RegField := ⟨.TIME_INTEG, 31, 0⟩
def TIME_OFFSET_THETA : RegField := ⟨.TIME_OFFSET, 31, 0⟩
def TIME_SERVO_KP : RegField := ⟨.TIME_SERVO, 7, 0⟩
def TIME_SERVO_KI : RegField := ⟨.TIME_SERVO, 15, 8⟩
def TIME_SERVO_LOCK_NS : RegField := ⟨.TIME_SERVO, 23, 16⟩
def TIME_SERVO_LOCK_CNT : RegField := ⟨.TIME_SERVO, 27, 24⟩
def TIME_LIMIT_RATE_PPM : RegField := ⟨.TIME_LIMIT, 9, 0⟩
def TIME_LIMIT_STEP_US : RegField := ⟨.TIME_LIMIT, 25, 16⟩
def TIME_GPTP_LOG_SYNC : RegField := ⟨.TIME_GPTP, 3, 0⟩
def TIME_GPTP_LOG_PDELAY : RegField := ⟨.TIME_GPTP, 7, 4⟩
def TIME_GPTP_SYNC_TMO : RegField := ⟨.TIME_GPTP, 11, 8⟩
def TIME_PORTS_ROLE0 : RegField := ⟨.TIME_PORTS, 1, 0⟩
def TIME_PORTS_ROLE1 : RegField := ⟨.TIME_PORTS, 3, 2⟩
def TIME_PORTS_ROLE2 : RegField := ⟨.TIME_PORTS, 5, 4⟩
def TIME_PORTS_ROLE3 : RegField := ⟨.TIME_PORTS, 7, 6⟩
def TIME_CLKID_LO_ID : RegField := ⟨.TIME_CLKID_LO, 31, 0⟩
def TIME_CLKID_HI_ID : RegField := ⟨.TIME_CLKID_HI, 31, 0⟩
def TIME_EVT_SYNCED : RegField := ⟨.TIME_EVT, 0, 0⟩
def TIME_EVT_UNSYNCED : RegField := ⟨.TIME_EVT, 1, 1⟩
def TIME_EVT_HOLDOVER : RegField := ⟨.TIME_EVT, 2, 2⟩
def TIME_EVT_STEP : RegField := ⟨.TIME_EVT, 3, 3⟩
def TIME_EVT_PARTNER_LOST : RegField := ⟨.TIME_EVT, 4, 4⟩
def TIME_EVT_RETURNED : RegField := ⟨.TIME_EVT, 5, 5⟩
def TIME_EVT_AUTO_TKO : RegField := ⟨.TIME_EVT, 6, 6⟩
def TIME_EVT_AUTO_SKIP : RegField := ⟨.TIME_EVT, 7, 7⟩
def TIME_IEN_IEN : RegField := ⟨.TIME_IEN, 7, 0⟩
def TIME_STEPS_COUNT : RegField := ⟨.TIME_STEPS, 31, 0⟩
def PTP_DELAY_NS : RegField := ⟨.PTP_DELAY, 31, 0⟩
def PTP_NRR_NRR : RegField := ⟨.PTP_NRR, 31, 0⟩
def PTP_LAT_TX_10G : RegField := ⟨.PTP_LAT, 7, 0⟩
def PTP_LAT_RX_10G : RegField := ⟨.PTP_LAT, 15, 8⟩
def PTP_LAT_TX_2G5 : RegField := ⟨.PTP_LAT, 23, 16⟩
def PTP_LAT_RX_2G5 : RegField := ⟨.PTP_LAT, 31, 24⟩
def PTP_ASYM_ASYM : RegField := ⟨.PTP_ASYM, 15, 0⟩
def PTP_SYNCS_RX : RegField := ⟨.PTP_SYNCS, 15, 0⟩
def PTP_SYNCS_TX : RegField := ⟨.PTP_SYNCS, 31, 16⟩
def FLIP_BASE_LO_NS : RegField := ⟨.FLIP_BASE_LO, 31, 0⟩
def FLIP_BASE_HI_NS : RegField := ⟨.FLIP_BASE_HI, 31, 0⟩
def FLIP_NUM_NS : RegField := ⟨.FLIP_NUM, 31, 0⟩
def FLIP_CFG_DEN : RegField := ⟨.FLIP_CFG, 7, 0⟩
def FLIP_CFG_TOL_NS : RegField := ⟨.FLIP_CFG, 15, 8⟩
def FLIP_CFG_CAPTURE_NS : RegField := ⟨.FLIP_CFG, 27, 16⟩
def FLIP_INDEX_LO_K : RegField := ⟨.FLIP_INDEX_LO, 31, 0⟩
def FLIP_INDEX_HI_K : RegField := ⟨.FLIP_INDEX_HI, 31, 0⟩
def FLIP_ERR_E : RegField := ⟨.FLIP_ERR, 31, 0⟩
def ANN_CTRL_EN : RegField := ⟨.ANN_CTRL, 0, 0⟩
def ANN_CTRL_AUTO : RegField := ⟨.ANN_CTRL, 1, 1⟩
def ANN_CTRL_MISS_LIMIT : RegField := ⟨.ANN_CTRL, 7, 4⟩
def ANN_CTRL_WAIT_US : RegField := ⟨.ANN_CTRL, 25, 16⟩
def ANN_WATCH_CHIPS : RegField := ⟨.ANN_WATCH, 11, 0⟩
def ANN_TKO_CHIP : RegField := ⟨.ANN_TKO, 3, 0⟩
def ANN_TKO_VALID : RegField := ⟨.ANN_TKO, 31, 31⟩
def ANN_LOST_LOST : RegField := ⟨.ANN_LOST, 11, 0⟩
def ANN_BADIDX_COUNT : RegField := ⟨.ANN_BADIDX, 31, 0⟩
def ANN_STAT_MISSES : RegField := ⟨.ANN_STAT, 3, 0⟩
def ANN_STAT_SEEN : RegField := ⟨.ANN_STAT, 4, 4⟩
def ANN_STAT_FLAGS : RegField := ⟨.ANN_STAT, 15, 8⟩
def ANN_STAT_INDEX : RegField := ⟨.ANN_STAT, 31, 16⟩
def EVT_CTRL_EN : RegField := ⟨.EVT_CTRL, 0, 0⟩
def EVT_CTRL_CREDITS : RegField := ⟨.EVT_CTRL, 11, 8⟩
def EVT_RESEND_US : RegField := ⟨.EVT_RESEND, 15, 0⟩
def EVT_STATUS_OUTSTANDING : RegField := ⟨.EVT_STATUS, 3, 0⟩
def EVT_SEQ_SEQ : RegField := ⟨.EVT_SEQ, 31, 0⟩
def EVT_SENT_COUNT : RegField := ⟨.EVT_SENT, 31, 0⟩
def EVT_RESENDS_COUNT : RegField := ⟨.EVT_RESENDS, 31, 0⟩

end Sys2Proof.Machine.F
end

