-- ==== Sys2Proof/Machine/Sparse.lean ====
section
/-! DEFINITION. Sparse data by key: a list of (key, value) pairs, keys rising, with a value for the keys that are not
listed given by the reader. -/

namespace Sys2Proof

/-- Pairs of a key and a value. -/
abbrev Sparse (α : Type) := List (Nat × α)

/-- The value at key `k`; `d` where `k` is not listed. -/
def Sparse.look {α : Type} (m : Sparse α) (k : Nat) (d : α) : α :=
  match m with
  | [] => d
  | c :: r => if c.1 = k then c.2 else Sparse.look r k d

/-- Whether key `k` is listed. -/
def Sparse.has {α : Type} (m : Sparse α) (k : Nat) : Bool := m.any (fun c => c.1 == k)

/-- Lists `v` at key `k`, in the place its key gives it. -/
def Sparse.put {α : Type} (m : Sparse α) (k : Nat) (v : α) : Sparse α :=
  match m with
  | [] => [(k, v)]
  | c :: r =>
    if c.1 < k then c :: Sparse.put r k v
    else if c.1 = k then (k, v) :: r
    else (k, v) :: c :: r

/-- Takes key `k` out of the list. -/
def Sparse.del {α : Type} (m : Sparse α) (k : Nat) : Sparse α := m.filter (fun c => c.1 != k)

/-- Writes `v` at key `k` of a map whose unlisted keys read `d` there: the value `d` takes the key out. -/
def Sparse.set {α : Type} [DecidableEq α] (m : Sparse α) (k : Nat) (d v : α) : Sparse α :=
  if v = d then Sparse.del m k else Sparse.put m k v

/-- Keys strictly rising. -/
abbrev Sparse.Sorted {α : Type} (m : Sparse α) : Prop := m.Pairwise (fun a b => a.1 < b.1)

/-- Changes the value at key `k` by `f`. -/
def Sparse.upd {α : Type} (m : Sparse α) (k : Nat) (d : α) (f : α → α) : Sparse α := m.put k (f (m.look k d))

end Sys2Proof
end

