-- ==== Sys2Proof/Machine/State.lean ====
section
/-! DEFINITION. The state of the device, as plain data, the reasons a step can stop, and the state after power-on reset.

Registers live in one map, `State.regs`, keyed by register and instance; the structures below hold what the spec gives the
machine beside its registers.  A count of times is in nanoseconds of the counter C (R394). -/

namespace Sys2Proof.Machine

/-- Why a step could stop with a fault.  The device of the spec never stops: its faults are records in its fault log (R477)
and states of its cores and keepers (R105, R424), which are next states here; so no meaning raises a fault of this type and
the type has no constructor.  Safe. -/
inductive Fault where
  deriving DecidableEq, Repr

/-- Why a step could be refused. -/
inductive Refusal where
  /-- Raised by an arm of `exec` whose command has no meaning yet; no arm does.  Safe. -/
  | notModelled (mnemonic : String)
  deriving DecidableEq, Repr

/-! ### Faults of the device -/

/-- A fault as a unit raises it (R478, R481): its code, class and unit, and the details D0 to D3. -/
structure FaultRec where
  code : Nat
  cls : Nat
  unit : Nat
  d0 : Word := 0
  d1 : Word := 0
  d2 : Word := 0
  d3 : Word := 0
  deriving DecidableEq, Repr

/-- A record of the fault log (R478): the fault, its log sequence number and the network time of the raise. -/
structure LogRec where
  fault : FaultRec
  seq : Word
  time : Nat
  deriving DecidableEq, Repr

/-! ### Engines and cores -/

/-- An active loop (R146): its counter, the instruction its body starts at and the one it ends at. -/
structure LoopRec where
  counter : Nat
  first : Nat
  last : Nat
  deriving DecidableEq, Repr

/-- What an engine waits for (R107): nothing; the condition of a blocked instruction; the result of a watch it has parked;
a place in a full watch list (R78); an interrupt source, in a held read of IRQ_WAIT (R435). -/
inductive Wait where
  | none
  | blocked (opcode : BitVec 8) (b : KBits)
  | parked (opcode : BitVec 8) (b : KBits)
  | listFull (opcode : BitVec 8) (b : KBits)
  | irq (opcode : BitVec 8) (b : KBits)
  deriving DecidableEq, Repr

/-- What a memory-side operation returns (R77): the old word, the flag and the poison flag. -/
structure OpResult where
  old : Word
  flag : Bool
  poison : Bool
  deriving DecidableEq, Repr

/-- One engine's registers, loops and position (R127, R132), what it waits for, whether its parked
watch is to be withdrawn for a HALT or after its watchdog expired (R82, R107, R219), a result kept for its resumption (R107),
the writes or reads a FILL or DRAIN waits for, as streams with their access counts (R151), what a load holds while it waits for
room in the forwarding buffer (R107, R135), and since when an HSEND has waited on a full skid buffer, with whether that stall has
been counted (R121), and when the WAITF or WAITD that waits was started (R218).  Unlisted registers are zero. -/
structure Engine where
  s : Sparse Word := []
  a : Sparse Addr := []
  p : Sparse Bool := []
  d : Sparse (BitVec 256) := []
  n : Sparse Word := []
  loops : List LoopRec := []
  pc : Nat := 0
  stopped : Bool := false
  atHalt : Bool := false
  wait : Wait := .none
  withdraw : Bool := false
  expired : Bool := false
  got : Option OpResult := none
  fence : Option (List (Nat × Word)) := none
  loaded : Option (BitVec 256) := none
  stall : Option (Nat × Bool) := none
  since : Option Nat := none
  deriving DecidableEq, Repr

/-- An entry of the forwarding buffer (R135): the instruction that loaded it and what it loaded. -/
structure FwdEntry where
  pc : Nat
  value : BitVec 256
  deriving DecidableEq, Repr

/-- An entry of a queue (R102, R175). -/
structure QEntry where
  words : List Word
  poison : Bool
  deriving DecidableEq, Repr

/-- A queue: its entries, oldest first, and its direction (R102). -/
structure Queue where
  entries : List QEntry := []
  outbound : Bool := false
  deriving DecidableEq, Repr

/-- A weight tile in Q0 or in a skid buffer (R104, R118): an identity of the model's own, its words, its poison, its chain
tag, and whether it has been sent and released (R153). -/
structure Tile where
  id : Nat
  words : List Word
  poison : Bool
  tag : Word
  sent : Bool := false
  released : Bool := false
  deriving DecidableEq, Repr

/-- A weight plane (R100): the tile it was loaded from and the weight type it was loaded for. -/
structure Plane where
  tileId : Nat
  words : List Word
  poison : Bool
  wty : Nat
  deriving DecidableEq, Repr

/-- An arming (R198): copies of its descriptors, its queue and mode, the instruction that made it, and whether it started
tainted (R221). -/
structure Arming where
  q : Nat
  mode : Nat
  dt : BitVec 256
  dx : BitVec 256
  pc : Nat
  tainted : Bool := false
  deriving DecidableEq, Repr

/-- A word that a stream gathers, with its poison; `last` marks the last word of an entry (R213, R519). -/
structure StreamWord where
  word : Word
  poison : Bool
  last : Bool := false
  deriving DecidableEq, Repr

/-- A stream: its current arming and its shadow (R198, R208), the queues it holds (R207), the entry it has reached and the
accesses performed for that entry or run, the words read for it by word address with their poison, the outbound entry taken
(R202), the index words of a gather (R209), the compressed words still to be written (R213), and the words of a tile being
gathered for Q0 (R519). -/
structure Stream where
  cur : Option Arming := none
  shadow : Option Arming := none
  holds : List Nat := []
  entry : Nat := 0
  acc : Nat := 0
  words : Sparse Word := []
  wpoison : Sparse Bool := []
  taken : Option QEntry := none
  idx : Sparse Word := []
  idxPoison : Sparse Bool := []
  outBuf : List StreamWord := []
  tile : List StreamWord := []
  deriving DecidableEq, Repr

/-- A matrix instruction under way (R172, R180): its frame as operand values by input row, channel and column, whether any
entry or tile so far was poisoned, and the next step. (DEDUCED, log entry 166.) -/
structure MatRun where
  frame : List (List (List Int))
  poison : Bool
  step : Nat
  deriving DecidableEq, Repr

/-- What a matrix instruction under way found when it issued, and what its withdrawal brings back (R107): the tiles of Q0, the load
pointer and the tile last taken (R179), the weight planes, and the accumulator rows with their poison. -/
structure Undo where
  tiles : List Tile
  loadPtr : Nat
  lastTaken : Option Nat
  plane : Option Plane
  shadow : Option Plane
  acc : Sparse (List Word)
  accPoison : Sparse Bool
  deriving DecidableEq, Repr

/-- An entry of the requantiser table (R189, R257). -/
structure TableEntry where
  b : Word := 0
  m : Word := 0
  s : Nat := 0
  poison : Bool := false
  deriving DecidableEq, Repr

/-- A compute core (R97 to R109).  `state` holds the codes of R105 and `cause` those of CORE_STATE.CAUSE.  What is undefined
after a reset, STOP, withdrawal or bind is a free value: of the generation `accGen` in the accumulator rows, and of
`pocketGen` and `tableGen` in the pocket after a warm reset and in the requantiser table (zero without one), where nothing has been
written since.  `plane` and `shadow` are the active and the shadow weight plane (R100); `bank` holds the entries that an
instruction has moved into the operand store, by queue (R172), `undo` what its withdrawal brings back, `emitted` how many
outputs a waiting REQ has written and `loadBuf` the entries a waiting REQ of mode 3 has taken.
(DESIGN CHOICE, log entry 7.) -/
structure Core where
  state : Nat := 0
  cause : Nat := 0
  haltReq : Bool := false
  fetch : Engine := {}
  exec : Engine := {}
  fwd : List FwdEntry := []
  queues : Sparse Queue := []
  tiles : List Tile := []
  loadPtr : Nat := 0
  lastTaken : Option Nat := none
  plane : Option Plane := none
  shadow : Option Plane := none
  bank : Sparse (List QEntry) := []
  matRun : Option MatRun := none
  undo : Option Undo := none
  emitted : Nat := 0
  loadBuf : List QEntry := []
  acc : Sparse (List Word) := []
  accPoison : Sparse Bool := []
  accGen : Nat := 0
  table : Sparse TableEntry := []
  tableGen : Option Nat := none
  digest : BitVec 64 := 0
  digestPoison : Bool := false
  skid : List Tile := []
  streams : Sparse Stream := []
  accounts : Sparse Int := []
  limits : Option (Sparse (BitVec 64)) := none
  pocket : Sparse (BitVec 64) := []
  pocketGen : Option Nat := none
  pktLow : Word := 0
  load : Option (Nat × Nat) := none
  cut : Option (List Nat) := none
  taintIn : BitVec 16 := 0
  taintOut : BitVec 16 := 0
  slotCut : Bool := false
  tempReading : Int := 200
  deriving DecidableEq, Repr

/-- A keeper core (R423, R424): its state code, its registers and position, its program memory, and the tick at which its
watchdog run began (R429). -/
structure Keeper where
  state : Nat := 0
  eng : Engine := {}
  program : Sparse (BitVec 64) := []
  wdogTicks : Nat := 0
  deriving DecidableEq, Repr

/-! ### Stores -/

/-- A watch parked in an octet's list (R78): who parked it, where, and its operation. -/
structure Watch where
  e : EngId
  addr : Nat
  cond : Nat
  a : Word
  delta : BitVec 16
  deriving DecidableEq, Repr

/-- A late stripe-line whose slot is still to be filled (R21): its stream, its fill word, the fill count that completes it, and its drain
word. -/
structure LateLine where
  stream : Nat
  fillAddr : Nat
  need : Word
  drainAddr : Nat
  deriving DecidableEq, Repr

/-- An armed injection (R489). -/
structure Injection where
  kind : Nat
  addr : Nat
  bit0 : Nat
  bit1 : Nat
  core : Nat
  until_ : Nat
  deriving DecidableEq, Repr

/-- An access that waits at the system port of a store, or at the fabric bridge (R74, R75): its requester class (0 keepers, 1 DMA
channels, 2 Pulet windows, 3 the model-library loader, 4 the host), its member of the class, its address and its operation;
without an operation it is the access of the command under way, which performs it itself. -/
structure SysAccess where
  cls : Nat
  member : Nat
  addr : Nat
  op : Option PortOp
  deriving DecidableEq, Repr

/-- What the stores hold beside their words: wheel step counters (R70); at each store's system port the access of each class
(R74), at key 5 store + class, the accesses of its other members that wait, with that key, and the class and member served last;
the fabric bridge's buffer, oldest access first (R75); watch lists by store and octet (R78), the results of
performed watches that wait for their requester (R79), the rows the scrubbers have reached and the wheel steps of their last
reads (R87), the band transitions in
progress with their targets (R91, R92), and when ECC_CORRECTED was last raised (R84). -/
structure StoreUnit where
  wheel : Sparse Nat := []
  slots : Sparse SysAccess := []
  waits : List (Nat × SysAccess) := []
  lastClass : Sparse Nat := []
  lastMember : Sparse Nat := []
  bridge : List SysAccess := []
  watches : Sparse (List Watch) := []
  results : List (EngId × OpResult) := []
  scrubRow : Sparse Nat := []
  scrubStep : Sparse Nat := []
  bandMoves : Sparse Nat := []
  lastCorr : Sparse Nat := []
  late : List LateLine := []
  deriving DecidableEq, Repr

/-! ### The network -/

/-- A frame a port is to send or has received, of any kind (R369, R370, R404).  `relaySync` and `gmSync` are Syncs whose time
stamps are inserted as they leave (R406, R407): a relayed one carries its time of receipt and the SLAVE port's PTP_DELAY.
`malformed` is a frame of the Pulet EtherType that is none of R370's, `ptpIgnored` a gPTP frame the profile discards. -/
inductive WireFrame where
  | data (f : Frame)
  | ack (ackn : BitVec 16)
  | nak (ackn : BitVec 16)
  | sync (ackn : BitVec 16)
  | syncAck (ackn : BitVec 16)
  | malformed
  | ptpSync (m : PtpMsg)
  | ptpFollowUp (m : PtpMsg)
  | pdelayReq (m : PtpMsg)
  | pdelayResp (m : PtpMsg)
  | pdelayRespFollowUp (m : PtpMsg)
  | relaySync (m : PtpMsg) (received : Int) (delay : Nat)
  | gmSync (m : PtpMsg)
  | ptpIgnored
  | other
  deriving DecidableEq, Repr

/-- A frame as it leaves a port, with its destination and source addresses and its EtherType (R369); after CORRUPT_LINK, the count n
that picks the bit inverted behind its FCS (R391). -/
structure Sent where
  port : Nat
  frame : WireFrame
  da : BitVec 48
  sa : BitVec 48
  etype : BitVec 16
  flip : Option Nat := none
  deriving DecidableEq, Repr

/-- A frame held by fault injection (R391): its direction, the count n of CORRUPT_LINK where its FCS is bad, how many eligible frames
it still waits for, or the time DELAY ends for it; with neither, it waits behind a delayed frame. -/
structure Held where
  rx : Bool
  frame : WireFrame
  bad : Option Nat
  frames : Nat
  until_ : Option Nat
  deriving DecidableEq, Repr

/-- The gPTP state of a port (R399 to R406): the Sync that waits for its Follow_Up with its time of receipt and the C of its receipt, the
sequence number, departure and sending C of the last Pdelay_Req, the response to it with its receipt, the departure of the last
Pdelay_Resp sent, the response's departure and receipt of the exchange before, and the sequence number of the next Sync with the C at
which the last was sent. -/
structure PtpPort where
  sync : Option (PtpMsg × Int × Nat) := none
  reqAt : Option Nat := none
  syncAt : Option Nat := none
  reqSeq : BitVec 16 := 0
  reqSent : Option Int := none
  resp : Option (PtpMsg × Int) := none
  respSent : Int := 0
  lastPair : Option (Rat × Rat) := none
  syncSeq : BitVec 16 := 0
  deriving DecidableEq, Repr

/-- An Ethernet port (R373 to R375): the Pulet state code of PRT_STATUS, the next transmit and receive sequence numbers, the
retransmit buffer with the times of sending, the frames that wait for room in it, the go-back-N rounds without progress, the
SYNC_ACKs exchanged, when SYNC was last sent, whether a NAK has been sent for the present gap, the requests delivered and not yet
performed, the words an MGMT_RD at their head has read before a read of IRQ_WAIT that is held, with the C of that, and the fault injection's count, shift register and held frames (R391). -/
structure Port where
  txSeq : BitVec 16 := 0
  rxSeq : BitVec 16 := 0
  retx : List (Frame × Nat) := []
  waiting : List Frame := []
  rounds : Nat := 0
  ackSent : Bool := false
  ackSeen : Bool := false
  syncAt : Option Nat := none
  nakSent : Bool := false
  delivered : List Frame := []
  mgmt : Option (List Word × Nat) := none
  fiCount : Nat := 0
  fiLfsr : BitVec 16 := 1
  fiHeld : List Held := []
  ptp : PtpPort := {}
  deriving DecidableEq, Repr

/-- A transaction outstanding on a DMA channel (R386). -/
structure Txn where
  tag : BitVec 16
  offset : Nat
  length : Nat
  sentAt : Nat
  deriving DecidableEq, Repr

/-- A multicast member (R390): the offset it has acknowledged, whether it is attached, the code it failed with, the re-sends
without advance, and when each outstanding transaction was sent, oldest first. -/
structure Member where
  chip : Nat
  acked : Nat := 0
  attached : Bool := true
  failed : Option Nat := none
  retries : Nat := 0
  sent : Nat := 0
  times : List Nat := []
  deriving DecidableEq, Repr

/-- A DMA channel while it runs (R385 to R390): the offset of the next transaction, those outstanding, the byte ranges that
are complete, the code it is stopping with, the multicast members and the splice line counter. -/
structure Dma where
  next : Nat := 0
  txns : List Txn := []
  complete : List (Nat × Nat) := []
  stopping : Option Nat := none
  members : List Member := []
  catchUp : Option Nat := none
  line : Nat := 0
  tagNext : BitVec 16 := 0
  deriving DecidableEq, Repr

/-- A multicast receiver's state for one (SRC, CHAN) pair (R389). -/
structure McState where
  src : Nat
  chan : Nat
  expect : Nat
  deriving DecidableEq, Repr

/-- The network: ports, channels, multicast receiver states oldest first, and the frames sent. -/
structure Net where
  ports : Sparse Port := []
  dma : Sparse Dma := []
  mc : List McState := []
  outbox : List Sent := []
  deriving DecidableEq, Repr

/-! ### Time -/

/-- The time unit (R395 to R418): the anchors of network time, a rate with the C at which it takes effect, the consecutive small
offsets (R402), the flip edges in lock and the trim integral of each raster (R412, R413), the time of the last valid Sync,
the INDEXes announced by each chip since the last check, and a takeover that waits for the next
frame boundary (R419). -/
structure TimeUnit where
  vA : BitVec 80 := 0
  cA : Nat := 0
  pendingRate : Option (Int × Nat) := none
  lockRun : Nat := 0
  lastSync : Nat := 0
  flipRun : Sparse Nat := []
  trimJ : Sparse Rat := []
  trim : Sparse Rat := []
  arrived : Sparse (List Nat) := []
  takeover : Bool := false
  deriving DecidableEq, Repr

/-! ### Interrupts and the host -/

/-- An event sent to the host and still in service (R439, R440). -/
structure HostEvent where
  src : Nat
  prio : Nat
  seq : Word
  time : Nat
  lastSent : Nat
  deriving DecidableEq, Repr

/-- The interrupt controller (R430 to R441): the target each source in service is served by, the targets with a held read of
IRQ_WAIT that is no keeper's and the C at which it was held, the frame-report latches, the host events in service, and the C of the
last management tick (R427). -/
structure Irq where
  inService : Sparse Nat := []
  held : List (Nat × Nat) := []
  lastTick : Option Nat := none
  frameLatch : Sparse Bool := []
  events : List HostEvent := []
  deriving DecidableEq, Repr

/-! ### Boot, flash, OTP, attestation -/

/-- A flash operation under way (R463): the erase of a sector, or the program of a page with its data, at a byte offset. -/
inductive FlashJob where
  | erase (ofs : Nat)
  | program (ofs : Nat) (data : List Byte)
  deriving DecidableEq, Repr

/-- An OTP operation under way (R467, R468): the read of a word, the program of its bits, or the advance of a counter. -/
inductive OtpJob where
  | read (word : Nat)
  | program (word : Nat) (bits : Word)
  | advance (knot : Bool) (value : Nat)
  deriving DecidableEq, Repr

/-- An attestation operation under way (R471, R473): the code it ends with, the address it refuses where that is ADDR_RANGE, the
bytes it writes and where, and the session key it sets. -/
structure AttJob where
  code : Nat
  addr : Nat := 0
  dst : Nat := 0
  out : List Byte := []
  key : Option (BitVec 256) := none
  deriving DecidableEq, Repr

/-- The boot unit beside its registers: the phase of the boot (0 booted, 1 the flash slots are tried, 2 a container is awaited
over the sideband, 3 it waits without one; R461, R462); the flash slot booted from; the key slots and digest of the running image
(R468, R471); the OTP words (R467); the attestation unit's session key, count of encryptions and measurement register; the
operations under way; the sideband's pointer and whether it acknowledged each byte of the last transaction, its address first (R442,
R444); and the container bytes received (R458). -/
structure Boot where
  phase : Nat := 1
  slot : Option Nat := none
  ecdsaSlot : Nat := 0
  lmsSlot : Nat := 0
  digest : List Byte := []
  otp : Sparse Word := []
  session : Option (BitVec 256) := none
  gcmCount : Nat := 0
  measurement : BitVec 384 := 0
  flash : Option FlashJob := none
  otpJob : Option OtpJob := none
  att : Option AttJob := none
  sbPointer : Nat := 0
  sbAcks : List Bool := []
  sbBytes : List Byte := []
  deriving DecidableEq, Repr

/-! ### Self-test -/

/-- An audit in progress (R483): its core, whether it was forced, whether a request asked for it, when its HALT was
requested, whether its program runs, the ring table and expected chain tag saved for the restore, and the frame sequence
number at its start. -/
structure Audit where
  core : Nat
  forced : Bool
  asked : Bool
  since : Nat
  seq : Word
  running : Bool := false
  saved : List Word := []
  deriving DecidableEq, Repr

/-- The self-test unit: the audit in progress, the request pending, the last core audited, the cores whose deferral has been
reported, the streams forced until the boundary after a forced audit, the kind the next slice tries first, whether a slice is still to
run in this interval, and the armed injection. -/
structure SelfTest where
  audit : Option Audit := none
  request : Option Nat := none
  last : Nat := 31
  deferred : List Nat := []
  forcedStreams : List Nat := []
  sliceNext : Nat := 0
  sliceDue : Bool := false
  injection : Option Injection := none
  deriving DecidableEq, Repr

/-! ### Enhancement streams and re-timing -/

/-- A reference buffer of the re-timing unit (R312): whether it holds a valid reference, the network time the frame completed,
its size, and the order in which it was last written. -/
structure RefBuf where
  valid : Bool := false
  time : Int := 0
  width : Nat := 0
  height : Nat := 0
  order : Nat := 0
  deriving DecidableEq, Repr

/-- The re-timing unit of one stream: its buffers, the one being written, the order of the next writing; the rows of processing
values of the block row being gathered and its number (R310); the samples written, by the address of their block (R311); the odd row
each pyramid level waits with and the rows it has written (R313); and from the last frame record A, B and PHASE, whether there was any
valid reference, HOLD, since when every record has had it, whether it has expired (R315) and TRANSP. -/
structure Mot where
  bufs : Sparse RefBuf := []
  writing : Option Nat := none
  orderNext : Nat := 1
  block : List (List (List Nat)) := []
  blockRow : Nat := 0
  samples : Sparse (List Nat) := []
  pyr : Sparse (List Nat) := []
  pyrRow : Sparse Nat := []
  a : Nat := 0
  b : Nat := 0
  phase : Nat := 0
  some_ : Bool := false
  hold : Bool := false
  holdSince : Nat := 0
  expired : Bool := false
  transp : Bool := false
  deriving DecidableEq, Repr

/-- What the binds of a stream give the device (R13, R15, R237, R284): W, the dependency ranges (DEP_AHEAD, DEP_SHIFT) of its
knots, the skein of each stripe in order and its cores, and the addresses of each stripe's geometry records. -/
structure StreamPlan where
  window : Nat
  deps : List (Nat × Nat)
  skeins : List Nat
  cores : List (List Nat)
  records : List (List Nat)
  deriving DecidableEq, Repr

/-- What the device keeps for an enhancement stream beside its registers: SHAPE_OVER in this frame (R234); its plan; whether a
partial epoch left it unprepared (R288) or one rebound it since the last boundary (R53), and too late for the frame (R289); the lines of earlier frames since its
epoch apply (R328); the lines of this frame each stripe has completed (R26); and the items of the frame report (R28): the
minimum slack with its line and stripe, the counts by cause, the missing lines, whether DEADLINE_FALLBACK was raised, whether
the FRAME policy holds, whether a decision found a stripe that was not FORCED, and the stripes FORCED at some line. -/
structure PicStream where
  shapeOver : Bool := false
  plan : Option StreamPlan := none
  unprepared : Bool := false
  rebound : Bool := false
  forcedFrame : Bool := false
  lineBase : Nat := 0
  complete : Sparse Nat := []
  minSlack : Option (Int × Nat × Nat) := none
  forced : Nat := 0
  poisoned : Nat := 0
  late : Nat := 0
  policy : Nat := 0
  missing : Nat := 0
  lateRaised : Bool := false
  frameFail : Bool := false
  active : Bool := false
  forcedStripes : List Nat := []
  deriving DecidableEq, Repr

/-! ### The belay and the AVS block -/

/-- A PMBus transaction in progress (R64): its target address and command code, whether it reads, its length in bytes, the data a
write sends, the bus speed, and whether it is checked by a packet error code. -/
structure PmbXfer where
  addr : Nat
  cmd : Nat
  read : Bool
  len : Nat
  data : Word
  speed : Nat
  pec : Bool
  deriving DecidableEq, Repr

/-- A rail command outstanding on the AVSBus (R51, R64): its rail select, its voltage, whether it raises, lowers or was written by
hand (1, 2, 0), its attempts so far, when the last was made, and the time of the raise before it. -/
structure RailCmd where
  sel : Nat
  mv : Nat
  kind : Nat
  attempts : Nat
  at_ : Nat
  before : Option Nat
  deriving DecidableEq, Repr

/-- The belay and the AVS block (R43 to R56, R64): the rail last commanded and last accepted since power-on, in mV; when the
last rail command, the last raise and the last AT_MAX count were; whether the last decision instant wanted a raise, and since
when every one allowed lowering; the cores below the floor rate (R47); whether V_low conflicts (R44); the streams active
at the last decision instant (R43); the command outstanding,
a read-back in progress or due, when the last fell due, a manual target that waits; the PMBus transaction; each core's run of
windows held at a limit (R42); and the streams whose STRIPE_SHADOW was written since the last boundary (R55). -/
structure Fab where
  rail : Option Nat := none
  accepted : Option Nat := none
  lastCmd : Option Nat := none
  lastRaise : Option Nat := none
  lastMax : Option Nat := none
  short : Bool := false
  goodSince : Option Nat := none
  viol : List Nat := []
  conflict : Bool := false
  active : List Nat := []
  cmd : Option RailCmd := none
  readback : Bool := false
  readPend : Bool := false
  lastPoll : Nat := 0
  deferred : Option Nat := none
  pmb : Option PmbXfer := none
  clampRun : Sparse Nat := []
  shadowNew : List Nat := []
  deriving DecidableEq, Repr

/-! ### Knots, binds and epochs -/

/-- A library import under way (R276): its knot, area and NOBODY as they were at GO, and, once step 5 has written the directory, the
half written with the knot entry that step 6 copies (R465). -/
structure ImportReq where
  knot : Nat
  ofs : Nat
  len : Nat
  noBody : Bool
  burst : Option (Nat × List Nat) := none
  deriving DecidableEq, Repr

/-- The knot unit beside its registers: the knot table (R268, R269), word `w` of knot `k` at key 16 k + w; the import under
way; the knot under verification with the pages written since it began (R280); and the units that are pending in RESIDUAL
(R288): stream `x` as `x`, the bind in slot `i` as `2 + i`; and by entry of the lease directory the owner of the lock found
expired at the last visit (R292). -/
structure KnotUnit where
  table : Sparse Word := []
  imp : Option ImportReq := none
  ver : Option (Nat × List Nat) := none
  pend : List Nat := []
  lease : Sparse Word := []
  deriving DecidableEq, Repr

/-- A write that waits in a shadow (R319): the register instance and the value. -/
structure ShadowWrite where
  reg : RegId
  i : Nat
  j : Nat
  value : Word
  deriving DecidableEq, Repr

/-! ### Input paths -/

/-- A line held in a sink's line buffer (R299): its number in its frame, its ring slot, its decoded samples by component, and the
paths that have still to release it. -/
structure HeldLine where
  line : Nat
  slot : Nat
  comps : List (List (BitVec 12))
  users : List Nat
  deriving DecidableEq, Repr

/-- A sink beside its registers (R299, R300): its format, the lines held, oldest first, the ring slot of the next line, the frame
under way as the number of frames begun, the line it expects and whether the frame is bad, when its line 0 was complete, the
times of the last complete frames, newest first, when the last active line arrived (R300), and the chroma of the line pair that
arrives in 4:2:0 (R302). (DESIGN CHOICE, log entry 52.) -/
structure Sink where
  fmt : Option VideoFormat := none
  held : List HeldLine := []
  slot : Nat := 0
  frameNo : Nat := 0
  inFrame : Bool := false
  nextLine : Nat := 0
  bad : Bool := false
  firstAt : Nat := 0
  doneAt : List Nat := []
  lastLine : Nat := 0
  chroma : List (List (BitVec 12)) := []
  deriving DecidableEq, Repr

/-- An input path beside its registers (R304 to R309): the sequence number of the first row of its frame and that of the next
frame's first row, MAP_READ and MAP_WRITE of the last frame record since the path was enabled, whether its frame has begun, its input size, the next
row to release, the sequence numbers of rows whose data are written ahead, the processing values of the rows released in this
frame by component, the rows substituted with the sink's frame of the time, the input lines substituted in this frame (R28), and
whether its sink had no video at a boundary and has not yet delivered the start of an aligned frame (R31, R306), and whether its layer's
size did not fit at the last boundary (R327). -/
structure InPath where
  base : Int := 0
  j : Nat := 0
  maps : Option (Word × Word) := none
  started : Bool := false
  width : Nat := 0
  height : Nat := 0
  next : Nat := 0
  written : List Nat := []
  rows : Sparse (List (List Nat)) := []
  subst : List (Nat × Nat) := []
  noVideo : Bool := true
  sizeBad : Bool := false
  deriving DecidableEq, Repr

/-! ### Composition and scan-out -/

/-- A pixel in the processing space, with its alpha before GALPHA (R332). -/
structure Pixel where
  c0 : Nat
  c1 : Nat
  c2 : Nat
  alpha : Nat := 4096
  deriving DecidableEq, Repr

/-- What one layer contributes to a line (R326): the layer (0 for the takeover's bypass layer), its stream where it is a video
layer, its first column and its pixels. -/
structure LayerLine where
  layer : Nat
  stream : Option Nat
  x : Nat
  px : List Pixel
  deriving DecidableEq, Repr

/-- A raster beside its registers (R353, R354): the timing words an APPLY has left for the next boundary, the frame sequence
number (R28), the time of its last boundary, the adjustment of the vertical front porch in force and the one still to
come, in lines, and the network time at which a raster locked to it takes its first boundary (R411). -/
structure Raster where
  pend : Option (List Word) := none
  seq : Word := 0
  boundaryAt : Nat := 0
  adj : Int := 0
  adjNext : Int := 0
  startAt : Option Nat := none
  deriving DecidableEq, Repr

/-- A surface layer's fetch in this frame (R335): the source lines in its ring with their pixels, the lines abandoned, and whether
UNDERRUN has been raised. (DESIGN CHOICE, log entry 69.) -/
structure Surf where
  rows : Sparse (List Pixel) := []
  gone : List Nat := []
  raised : Bool := false
  deriving DecidableEq, Repr

/-- What an output port carries (R345, R346): the line last converted to 12-bit samples, which 4:2:0 still needs, and the last line
sent, by component, with the bytes of the VSC SDP sent with its frame and, with DSC, the bits per pixel, slices and block prediction of
its encoding. -/
structure PortLine where
  prev : List (List Nat) := []
  line : Nat := 0
  sent : List (List Nat) := []
  vsc : Option Nat := none
  dsc : Option (Nat × Nat × Bool) := none
  deriving DecidableEq, Repr

/-- A load of the colour volume (R344): its source, its first block, its blocks, and the blocks copied with the CRC of their bytes. -/
structure CvLoad where
  src : Nat
  block : Nat
  blocks : Nat
  copied : Nat := 0
  crc : Word := 0xFFFFFFFF
  deriving DecidableEq, Repr

/-- Composition and scan-out beside their registers: of a pending commit its mask, its EPOCH, whether that epoch has left
COMMITTED, whether the
commit has been held (R349, R351); the LUT entries that differ from 4 i, at key ((2 LUT + bank) 3 + component) 1,025 + i (R339); the
load of the colour volume under way (R344); the layers of the lines decided and not yet blended, at
key 8,192 r + n; the fetches by layer; the ports; the running CRC of each region (R358); and the read-back lanes of this
frame. -/
structure Compose where
  mask : Nat := 0
  epoch : Bool := false
  gate : Bool := false
  fenceLate : Bool := false
  lut : Sparse Nat := []
  cvLoad : Option CvLoad := none
  lines : Sparse (List LayerLine) := []
  surf : Sparse Surf := []
  ports : Sparse PortLine := []
  crc : Sparse Word := []
  deriving DecidableEq, Repr

/-! ### The whole state -/

/-- The state of the device and the queue of commands that wait, first in, first out.
(DESIGN CHOICE, log entries 13 and 16.) -/
structure State where
  /-- The commands that wait. -/
  pending : List Instr := []
  /-- The counter C, ns (R394). -/
  time : Nat := 0
  /-- Registers by `regKey`; unlisted registers hold their reset value. -/
  regs : Sparse Word := []
  /-- Writes that wait for an epoch or a boundary: INP, MOT and ER registers (R286, R347). -/
  epochShadow : List ShadowWrite := []
  /-- Writes of INP, MOT and ER registers that wait for the next frame boundary of their path's output (R319). -/
  boundaryShadow : List ShadowWrite := []
  /-- Values in force of the registers that have a shadow (R347, R353, R359). -/
  force : Sparse Word := []
  /-- The word the last register read answered. -/
  readData : Word := 0
  /-- What the last access presented by another unit at a store port answered: its words, flag and poison (R71, R77). -/
  portWords : List Word := []
  portFlag : Bool := false
  portPoison : Bool := false
  /-- Bytes of memory that differ from what an unlisted address reads as. -/
  mem : List Host.Cell := []
  /-- Word addresses of the poisoned store words (R83). -/
  poison : Sparse Bool := []
  /-- Stored bits that differ from a valid codeword, by word address (R83). -/
  flips : Sparse (BitVec 40) := []
  /-- The verified map: verified pages of the weight store (R278). -/
  verified : Sparse Bool := []
  stores : StoreUnit := {}
  cores : Sparse Core := []
  keepers : Sparse Keeper := []
  pics : Sparse PicStream := []
  paths : Sparse InPath := []
  kn : KnotUnit := {}
  mot : Sparse Mot := []
  fab : Fab := {}
  cmp : Compose := {}
  sinks : Sparse Sink := []
  rasters : Sparse Raster := []
  net : Net := {}
  tu : TimeUnit := {}
  irq : Irq := {}
  boot : Boot := {}
  tst : SelfTest := {}
  /-- The fault log, oldest record first (R477). -/
  log : List LogRec := []
  /-- The log's next sequence number (R478). -/
  logSeq : Word := 0
  /-- The faults raised in the present step, still to be appended as one group (R477). -/
  raised : List FaultRec := []
  /-- The once-per-frame faults already raised in this reporting frame (R521): (code, holder). -/
  frameRaised : List (Nat × Nat) := []
  /-- A number no undefined content has been drawn with yet; every use advances it (the model's own field). -/
  fresh : Nat := 0
  /-- The level of the THERMTRIP_N ball is low (R514). -/
  thermTrip : Bool := false
  deriving DecidableEq, Repr, Inhabited

/-- The machine right after the release of power-on reset (R454, R8): every register at its reset value, the stores zeroed
or about to be (R88), nothing bound, running or waiting. (DESIGN CHOICE, log entries 2 and 5.) -/
def State.reset : State := { fresh := 1 }

end Sys2Proof.Machine
end

