-- ==== Sys2Proof/Machine/Ops.lean ====
section
/-! DEFINITION. The named operations every meaning is built from: registers and their fields, the fault log, network time,
memory with its poison, stored-bit errors and watches, and the memory-side operations. -/

namespace Sys2Proof.Machine

/-! ### Registers (R4 to R9) -/

/-- The place of a register instance in `State.regs`. -/
def regKey (r : RegId) (i j : Nat) : Nat := (r.ctorIdx * 256 + i) * 32 + j

/-- The value of a register instance after power-on reset (R8): its row's, or what its table says per instance.  The fused
calibration values are the model's (DESIGN CHOICE, log entry 1). -/
def regReset (r : RegId) (i j : Nat) : Word :=
  match r with
  | .STO_GEOM => BitVec.ofNat 32 ([0x20002160, 0x20002330, 0x08002140, 0x20000120, 0x20000808].getD i 0)
  | .SNK_LBUF => BitVec.ofNat 32 (0x20 + 256 * (if i = 0 then 0 else 0x1680))
  | .INP_BYP => BitVec.ofNat 32 (0x10 + 256 * (0x2D00 + 0x0B40 * i))
  | .INP_MAT => if j % 4 = 0 then 4096 else 0
  | .SMAT_C => if j % 2 = 0 then 4096 else 0
  | .SRC_MAT => if j % 2 = 0 then 4096 else 0
  | .PRT_MAC_LO => BitVec.ofNat 32 i
  | .CAL_FLIM_V => BitVec.ofNat 32 (500 + 800 * 65536)
  | .CAL_FLIM_G => BitVec.ofNat 32 (1 + 65535 * 65536)
  | .CAL_FLIM_T => 80
  | .CAL_FV => BitVec.ofNat 32 (720 + 720 * 65536)
  | .CAL_FGT => 4096
  | r => BitVec.ofNat 32 r.row.reset

/-- Reads a register's stored value. -/
def State.rd (s : State) (r : RegId) (i : Nat := 0) (j : Nat := 0) : Word := s.regs.look (regKey r i j) (regReset r i j)

/-- Writes a register's stored value. -/
def State.wr (s : State) (r : RegId) (v : Word) (i : Nat := 0) (j : Nat := 0) : State :=
  { s with regs := s.regs.set (regKey r i j) (regReset r i j) v }

/-- The mask of `n` low bits. -/
def maskOf (n : Nat) : Nat := 2 ^ n - 1

/-- The field of a word. -/
def RegField.get (f : RegField) (v : Word) : Nat := (v.toNat >>> f.lo) % 2 ^ (f.hi - f.lo + 1)

/-- A word with one field replaced. -/
def RegField.ins (f : RegField) (v : Word) (x : Nat) : Word :=
  let m := BitVec.ofNat 32 (maskOf (f.hi - f.lo + 1)) <<< f.lo
  (v &&& ~~~m) ||| ((BitVec.ofNat 32 x <<< f.lo) &&& m)

/-- Reads a field of a register. -/
def State.fld (s : State) (f : RegField) (i : Nat := 0) (j : Nat := 0) : Nat := f.get (s.rd f.reg i j)

/-- Whether a field of a register is not zero. -/
def State.bit (s : State) (f : RegField) (i : Nat := 0) (j : Nat := 0) : Bool := s.fld f i j != 0

/-- Writes a field of a register. -/
def State.setFld (s : State) (f : RegField) (x : Nat) (i : Nat := 0) (j : Nat := 0) : State :=
  s.wr f.reg (f.ins (s.rd f.reg i j) x) i j

/-- Sets bit `b` of a field of a register. -/
def State.setBit (s : State) (f : RegField) (b : Nat := 0) (i : Nat := 0) (j : Nat := 0) : State :=
  s.setFld f (s.fld f i j ||| 2 ^ b) i j

/-- Clears bit `b` of a field of a register. -/
def State.clrBit (s : State) (f : RegField) (b : Nat := 0) (i : Nat := 0) (j : Nat := 0) : State :=
  s.setFld f (if (s.fld f i j).testBit b then s.fld f i j - 2 ^ b else s.fld f i j) i j

/-- Adds `n` to a counter that saturates at its field's largest value. -/
def State.addSat (s : State) (f : RegField) (n : Nat := 1) (i : Nat := 0) (j : Nat := 0) : State :=
  s.setFld f (min (s.fld f i j + n) (maskOf (f.hi - f.lo + 1))) i j

/-- Adds `n` to a counter that wraps. -/
def State.addWrap (s : State) (f : RegField) (n : Nat := 1) (i : Nat := 0) (j : Nat := 0) : State :=
  s.setFld f (s.fld f i j + n) i j

/-- What a plain write of a register does by its fields' types (R5, R6, R7): RW bits take the value, W1C bits are cleared by
ones, W1S bits set by ones; all others stay. -/
def plainValue (row : RegRow) (old v : Word) : Word :=
  let rw := BitVec.ofNat 32 row.rw
  let w1c := BitVec.ofNat 32 row.w1c
  let w1s := BitVec.ofNat 32 row.w1s
  (((old &&& ~~~rw) ||| (v &&& rw)) &&& ~~~(v &&& w1c)) ||| (v &&& w1s)

/-- A plain write of a register instance. -/
def State.plainWrite (s : State) (r : RegId) (v : Word) (i : Nat := 0) (j : Nat := 0) : State :=
  s.wr r (plainValue r.row (s.rd r i j) v) i j

/-- Signed value of the low `n` bits of a number. -/
def signedOf (n x : Nat) : Int := if x % 2 ^ n < 2 ^ (n - 1) then (x % 2 ^ n : Int) else (x % 2 ^ n : Int) - 2 ^ n

/-- A signed field of a register. -/
def State.sfld (s : State) (f : RegField) (i : Nat := 0) (j : Nat := 0) : Int := signedOf (f.hi - f.lo + 1) (s.fld f i j)

/-- Low `n` bits of an integer. -/
def lowBits (n : Nat) (x : Int) : Nat := (x % (2 ^ n : Int)).toNat

/-- An integer held between two bounds. -/
def clampInt (lo hi x : Int) : Int := if x < lo then lo else if hi < x then hi else x

/-- Draws a number that no undefined content has been drawn with yet. (DEDUCED, log entry 20.) -/
def State.draw (s : State) : Nat × State := (s.fresh, { s with fresh := s.fresh + 1 })

/-! ### Network time (R394 to R396) -/

/-- The rate correction, signed, in units of 2^−40 (R395). -/
def State.rate (s : State) : Int := (s.rd .TIME_RATE).toInt

/-- The nanoseconds of the counter C since it stood at `t` (R394). -/
def State.elapsed (s : State) (t : Nat) : Nat := (s.time + 2 ^ 64 - t % 2 ^ 64) % 2 ^ 64

/-- Whether the counter C has reached `t`, a time that was set ahead of it. -/
def State.reached (s : State) (t : Nat) : Bool := decide (s.elapsed t < 2 ^ 63)

/-- Whether `d` ns have passed since a time, where there is one. -/
def State.lapsed (s : State) (t : Option Nat) (d : Nat) : Bool :=
  match t with
  | some t => decide (d ≤ s.elapsed t)
  | none => true

/-- V(C), 80 bits in units of 2^−16 ns (R395). -/
def State.ntV (s : State) : BitVec 80 :=
  let d : Int := s.elapsed s.tu.cA
  s.tu.vA + BitVec.ofInt 80 (d * 65536 + (d * s.rate) / 2 ^ 24)

/-- NT(C) in ns, 64 bits (R395). -/
def State.nt (s : State) : Nat := s.ntV.toNat / 65536

/-- NT as an integer, for differences. -/
def State.ntInt (s : State) : Int := s.nt

/-- A rational held between two bounds. -/
def clampRat (lo hi x : Rat) : Rat := if x < lo then lo else if hi < x then hi else x

/-! ### Cores and keepers -/

/-- Core `c`. -/
def State.core (s : State) (c : Nat) : Core := s.cores.look c {}

/-- Replaces core `c`. -/
def State.setCore (s : State) (c : Nat) (k : Core) : State := { s with cores := s.cores.put c k }

/-- Changes core `c`. -/
def State.updCore (s : State) (c : Nat) (f : Core → Core) : State := s.setCore c (f (s.core c))

/-- Keeper `k`. -/
def State.keeper (s : State) (k : Nat) : Keeper := s.keepers.look k {}

/-- Replaces keeper `k`. -/
def State.setKeeper (s : State) (k : Nat) (v : Keeper) : State := { s with keepers := s.keepers.put k v }

/-- Changes keeper `k`. -/
def State.updKeeper (s : State) (k : Nat) (f : Keeper → Keeper) : State := s.setKeeper k (f (s.keeper k))

/-- The stream a core is bound to: 0, 1, or 2 for none (CORE_BIND.STREAM, R126). -/
def State.streamOf (s : State) (c : Nat) : Nat :=
  if s.bit F.CORE_BIND_VALID c then min (s.fld F.CORE_BIND_STREAM c) 2 else 2

/-! ### Raising faults (R477 to R480, R521) -/

/-- Raises a fault: it joins the group of this instant. -/
def State.raise (s : State) (f : FaultRec) : State := { s with raised := s.raised ++ [f] }

/-- The order of a group in the log: CLASS, then UNIT, then code (R477). -/
def FaultRec.before (a b : FaultRec) : Bool :=
  decide (a.cls < b.cls ∨ a.cls = b.cls ∧ (a.unit < b.unit ∨ a.unit = b.unit ∧ a.code ≤ b.code))

/-- Puts a fault in its place in a sorted group. -/
def insertFault (f : FaultRec) : List FaultRec → List FaultRec
  | [] => [f]
  | g :: r => if g.before f then g :: insertFault f r else f :: g :: r

/-- A group in the order of the log. -/
def sortFaults (l : List FaultRec) : List FaultRec := l.foldl (fun acc f => insertFault f acc) []

/-- Appends one record to the log, or counts it as lost, and counts its code (R477, R480). -/
def State.appendFault (s : State) (f : FaultRec) : State :=
  let s := s.addSat F.FLT_CNT_COUNT 1 f.code
  if s.log.length < 64 then
    { s with log := s.log ++ [{ fault := f, seq := s.logSeq, time := s.nt }], logSeq := s.logSeq + 1 }
  else (s.addSat F.FLT_LOST_COUNT).setBit F.TST_EVT_LOG_LOST

/-- Ends a step: the faults raised in it are appended to the log as one sorted group (R477). -/
def State.flush (s : State) : State :=
  (sortFaults s.raised).foldl State.appendFault { s with raised := [] }

/-- A next state, with its faults logged. -/
def done (s : State) : Host.Outcome State Fault Refusal := .next s.flush

/-- Raises a fault at most once per reporting frame for its holder (R521).
(DEDUCED, log entry 201.) -/
def State.raiseOnce (s : State) (holder : Nat) (f : FaultRec) : State :=
  if s.frameRaised.contains (f.code, holder) then s.addSat F.FLT_CNT_COUNT 1 f.code
  else { s with frameRaised := (f.code, holder) :: s.frameRaised }.raise f

/-! ### Memory (R2, R3, R65 to R69, R445) -/

/-- First address of the boot flash window. -/
def flashBase : Nat := 0x0200000000
/-- First address of HyperRAM. -/
def hyperBase : Nat := 0x0100000000
/-- First address of the control registers. -/
def ctrlBase : Nat := 0x0F00000000

/-- What a byte reads as that nothing has written: zero in the stores (R88) and, by the model's choice, in HyperRAM (DESIGN CHOICE, log
entry 9); 0xFF in the boot flash (PRESUMED, log entry 10). (DEDUCED, log entry 198.) -/
def unlisted (a : Nat) : Byte := if flashBase ≤ a ∧ a < flashBase + 0x10000000 then 0xFF else 0

/-- The canonical form of memory: addresses strictly rising, no entry equal to what an unlisted address reads as. -/
abbrev Memory.wf (m : List Host.Cell) : Prop := Sparse.Sorted m ∧ ∀ c ∈ m, c.2 ≠ unlisted c.1

/-- Reads a byte. -/
def State.byteAt (s : State) (a : Nat) : Byte := Sparse.look s.mem a (unlisted a)

/-- Writes a byte. -/
def State.setByte (s : State) (a : Nat) (v : Byte) : State := { s with mem := Sparse.set s.mem a (unlisted a) v }

/-- The four data bytes of a word, little-endian (R3). -/
def State.rawWord (s : State) (a : Nat) : Word :=
  s.byteAt (a + 3) ++ s.byteAt (a + 2) ++ s.byteAt (a + 1) ++ s.byteAt a

/-- Byte `i` of a word. -/
def byteOf (v : Word) (i : Nat) : Byte := v.extractLsb' (8 * i) 8

/-- Writes the four data bytes of a word. -/
def State.setRaw (s : State) (a : Nat) (v : Word) : State :=
  (((s.setByte a (byteOf v 0)).setByte (a + 1) (byteOf v 1)).setByte (a + 2) (byteOf v 2)).setByte (a + 3) (byteOf v 3)

/-- Base address of each store (R65). -/
def storeBase (i : Nat) : Nat := i * 0x10000000
/-- Size of each store in bytes (R65). -/
def storeSize (i : Nat) : Nat := [0x0C000000, 0x06000000, 0x02000000, 0x04000000, 0x01000000].getD i 0
/-- Octets of each store (R65). -/
def octets (i : Nat) : Nat := [96, 48, 64, 32, 8].getD i 1
/-- Rows per bank of each store (R65). -/
def rowsOf (i : Nat) : Nat := if i = 2 then 2048 else 8192

/-- The store an address lies in. -/
def storeOf (a : Nat) : Option Nat :=
  let i := a / 0x10000000
  if i < 5 ∧ a - storeBase i < storeSize i then some i else none

/-- The octet of an address (R67). -/
def octetOf (store a : Nat) : Nat := ((a - storeBase store) / 256) % octets store

/-- The band of an address (R89). -/
def bandOf (store a : Nat) : Nat := (a - storeBase store) / (storeSize store / 8)

/-- The state in force of a band: 0 ACTIVE, 1 RETAIN, 2 OFF (R90). -/
def State.bandState (s : State) (store band : Nat) : Nat := (s.fld F.STO_BAND_STATE store / 4 ^ band) % 4

/-- The HyperRAM channel of a byte offset (R446). -/
def hyperChannel (o : Nat) : Nat := (o / 4096) % 16

/-- The channel byte offset of a HyperRAM byte offset (R446). -/
def hyperOffset (o : Nat) : Nat := o / 65536 * 4096 + o % 4096

/-- The installed HyperRAM capacity in bytes over the 16 channels (R446, R506). -/
def State.hyperSize (s : State) : Nat :=
  let cap := s.fld F.HYP_CFG_CAP
  let density := if cap = 0 ∨ 4 < cap then 0 else 0x400000 * 2 ^ cap
  16 * density * (if s.bit F.HYP_CFG_CS2 then 2 else 1)

/-- Whether an address lies in the HyperRAM that answers: installed and READY (R446, R505). -/
def State.inHyper (s : State) (a n : Nat) : Bool :=
  decide (hyperBase ≤ a ∧ a + n ≤ hyperBase + s.hyperSize) && s.bit F.HYP_STATUS_READY

/-- The smallest power of two at or above `n` (up to 64). -/
def pow2ceil (n : Nat) : Nat :=
  if n ≤ 1 then 1 else if n ≤ 2 then 2 else if n ≤ 4 then 4 else if n ≤ 8 then 8 else if n ≤ 16 then 16
  else if n ≤ 32 then 32 else 64

/-- Whether an access of `n` words is well aligned (R68). -/
def aligned (a n : Nat) : Bool := decide (1 ≤ n ∧ n ≤ 64 ∧ a % (4 * pow2ceil n) = 0)

/-- Whether a store access is served: aligned, in one store, in a band that is ACTIVE (R66, R68, R90). -/
def State.storeOk (s : State) (a n : Nat) : Bool :=
  aligned a n && match storeOf a with
    | some st => s.bandState st (bandOf st a) == 0
    | none => false

/-- Whether a byte range lies wholly in one of the stores that `ok` admits. -/
def inStores (ok : Nat → Bool) (a n : Nat) : Bool :=
  match storeOf a with
  | some st => ok st && decide (a + n ≤ storeBase st + storeSize st)
  | none => false

/-! ### Watches and store words (R77 to R86) -/

/-- The conditions of R77, by their CMPCNT codes (R152). -/
def condHolds (cond : Nat) (w a : Word) : Bool :=
  match cond with
  | 0 => w == a
  | 1 => w != a
  | 2 => decide (a.toNat ≤ w.toNat)
  | 3 => decide (w.toNat < a.toNat)
  | 4 => decide ((w - a).toNat < 2 ^ 31)
  | _ => decide (2 ^ 31 ≤ (w - a).toNat)

/-- The place of an octet's watch list. -/
def watchKey (store octet : Nat) : Nat := store * 128 + octet

/-- Clears the verified bit of the page a write falls in (R278); a page of a region under verification stays unverified by it
(R280). (DEDUCED, log entry 39.) -/
def State.unverify (s : State) (a : Nat) : State :=
  if a < storeSize 0 then
    { s with
      verified := s.verified.set (a / 4096) false false
      kn := match s.kn.ver with
        | none => s.kn
        | some (k, l) => { s.kn with ver := some (k, if l.contains (a / 4096) then l else (a / 4096) :: l) } }
  else s

/-- Goes through the watches of one octet in park order (R79, R80): a watch on word `a` whose condition holds is performed
and its count applied to the word; on a poisoned word it is released with the poison flag.  Answers the watches that stay,
the results, and the word as they leave it. -/
def runWatches (a : Nat) (poisoned : Bool) : List Watch → Word → List Watch × List (EngId × OpResult) × Word
  | [], w => ([], [], w)
  | x :: r, w =>
    if x.addr = a ∧ poisoned then
      let (k, rs, w') := runWatches a poisoned r w
      (k, (x.e, { old := w, flag := false, poison := true }) :: rs, w')
    else if x.addr = a ∧ condHolds x.cond w x.a then
      let (k, rs, w') := runWatches a poisoned r (w + x.delta.signExtend 32)
      (k, (x.e, { old := w, flag := true, poison := false }) :: rs, w')
    else
      let (k, rs, w') := runWatches a poisoned r w
      (x :: k, rs, w')

/-- Re-evaluates the watches parked on a word (R79, R80). -/
def State.wakeWatches (s : State) (store a : Nat) : State :=
  let key := watchKey store (octetOf store a)
  match s.stores.watches.look key [] with
  | [] => s
  | l =>
    let (k, rs, w) := runWatches a (s.poison.look a false) l (s.rawWord a)
    { s.setRaw a w with stores := { s.stores with watches := s.stores.watches.put key k, results := s.stores.results ++ rs } }

/-- Alters a write by the armed injection (R489): the write that covers the word performs it. -/
def State.injectWrite (s : State) (a : Nat) : State :=
  match s.tst.injection with
  | some j =>
    if j.kind < 3 ∧ j.addr = a then
      let s := { s with tst := { s.tst with injection := none } }.addSat F.TST_INJ_CNT_COUNT
      if j.kind = 2 then { s with poison := s.poison.set a false true }
      else
        let m : BitVec 40 := BitVec.ofNat 40 (if j.kind = 0 then 2 ^ j.bit0 else 2 ^ j.bit0 + 2 ^ j.bit1)
        { s with flips := s.flips.set a 0 m }
    else s
  | none => s

/-- Stores a word with its poison state: the word is replaced, an armed injection performed, its page loses the verified bit,
and its watches are re-evaluated (R79, R80, R86, R278). -/
def State.putStored (s : State) (a : Nat) (v : Word) (poison : Bool) : State :=
  match storeOf a with
  | some st =>
    let s := { s.setRaw a v with poison := s.poison.set a false poison, flips := s.flips.set a 0 0 }
    ((s.injectWrite a).unverify a).wakeWatches st a
  | none => s.setRaw a v

/-- Drains the slots of late stripe-lines that a write to their fill word has completed (R21). -/
def State.drainLate (s : State) (a : Nat) : State :=
  let hit := s.stores.late.filter (fun l => l.fillAddr == a && condHolds 4 (s.rawWord a) l.need)
  match hit with
  | [] => s
  | _ =>
    let s := { s with stores := { s.stores with late := s.stores.late.filter (fun l => !hit.contains l) } }
    hit.foldl (fun s l => if s.poison.look l.drainAddr false then s
      else s.putStored l.drainAddr (s.rawWord l.drainAddr + 1) false) s

/-- Writes a whole word at an address of a store or of HyperRAM. -/
def State.putWord (s : State) (a : Nat) (v : Word) (poison : Bool := false) : State := (s.putStored a v poison).drainLate a

/-- Counts, latches and reports a correction (R84): ECC_CORRECTED at most once per store per 1 ms. -/
def State.noteCorrected (s : State) (store src a : Nat) : State :=
  let s := (s.addSat F.STO_ECC_CORR_COUNT 1 store).setBit F.STO_EVT_ECC_CORR store
  let s := s.wr .STO_CORR_ADDR_LO (BitVec.ofNat 32 a)
  let s := ((s.setFld F.STO_CORR_ADDR_HI_ADDR (a / 2 ^ 32)).setFld F.STO_CORR_ADDR_HI_SOURCE src).setFld F.STO_CORR_ADDR_HI_STORE store
  let due := match s.stores.lastCorr.find? (fun c => c.1 == store) with
    | some c => decide (1000000 ≤ s.elapsed c.2)
    | none => true
  if due then
    { s with stores := { s.stores with lastCorr := s.stores.lastCorr.put store s.time } }.raise
      { code := 0x17, cls := 2, unit := store, d0 := BitVec.ofNat 32 a, d1 := BitVec.ofNat 32 (a / 2 ^ 32), d2 := BitVec.ofNat 32 src }
  else s

/-- Counts, latches and reports an uncorrectable error (R85). -/
def State.noteUncorrected (s : State) (store src a : Nat) : State :=
  let s := (s.addSat F.STO_ECC_UNC_COUNT 1 store).setBit F.STO_EVT_ECC_UNC store
  let s :=
    if s.bit F.STO_UNC_ADDR_HI_VALID then s
    else ((((s.wr .STO_UNC_ADDR_LO (BitVec.ofNat 32 a)).setFld F.STO_UNC_ADDR_HI_ADDR (a / 2 ^ 32)).setFld
      F.STO_UNC_ADDR_HI_SOURCE src).setFld F.STO_UNC_ADDR_HI_STORE store).setBit F.STO_UNC_ADDR_HI_VALID
  s.raise { code := 0x18, cls := 2, unit := store, d0 := BitVec.ofNat 32 a, d1 := BitVec.ofNat 32 (a / 2 ^ 32), d2 := BitVec.ofNat 32 src }

/-- The number of ones in a mask of stored bits. -/
def popCount40 (m : BitVec 40) : Nat := ((List.range 40).filter (fun i => m.getLsbD i)).length

/-- Writes a word back to its bank with valid check bits (R84). -/
def State.writeBack (s : State) (a : Nat) (v : Word) (p : Bool) : State :=
  { s.setRaw a v with poison := s.poison.set a false p, flips := s.flips.set a 0 0 }

/-- Reads a word for source `src` (a port of R73, or 0xFF for the scrubber): a correctable error is corrected and written
back (R84); an uncorrectable one returns the data bits with poison and stores the word poisoned (R85, R482).  Words outside
the stores have neither.  What is made of three or more differing bits is free (R83; DEDUCED, log entry 199). -/
def State.getWord (s : State) (src a : Nat) : (Word × Bool) × State :=
  match storeOf a with
  | none => ((s.rawWord a, false), s)
  | some st =>
    let m := s.flips.look a 0
    if m = 0 then ((s.rawWord a, s.poison.look a false), s)
    else if popCount40 m = 1 then
      ((s.rawWord a, s.poison.look a false), { s with flips := s.flips.set a 0 0 }.noteCorrected st src a)
    else
      match (if popCount40 m = 2 then none else Config.eccResidue m) with
      | none =>
        let v := s.rawWord a ^^^ m.extractLsb' 0 32
        ((v, true), (s.putStored a v true).noteUncorrected st src a)
      | some c =>
        let v := s.rawWord a ^^^ c.extractLsb' 0 32
        let p := (s.poison.look a false) != c.getLsbD 32
        if c = m then ((v, p), s)
        else ((v, p), (s.writeBack a v p).noteCorrected st src a)

/-- Reads `n` consecutive words; answers them with the OR of their poison flags. -/
def State.getWords (s : State) (src a : Nat) : Nat → (List Word × Bool) × State
  | 0 => (([], false), s)
  | n + 1 =>
    let ((w, p), s) := s.getWord src a
    let ((ws, q), s) := State.getWords s src (a + 4) n
    ((w :: ws, p || q), s)

/-- Writes consecutive whole words. -/
def State.putWords (s : State) (a : Nat) (poison : Bool) : List Word → State
  | [] => s
  | w :: r => State.putWords (s.putWord a w poison) (a + 4) poison r

/-- Replaces the enabled bytes of a word (R69). -/
def mergeBytes (old new : Word) (en : BitVec 4) : Word :=
  let b (i : Nat) : Byte := if en.getLsbD i then byteOf new i else byteOf old i
  b 3 ++ b 2 ++ b 1 ++ b 0

/-- Writes a word with byte enables (R69, R86): none enabled writes nothing; all enabled replace the word and its poison; some
enabled read, merge and write, and a poisoned or uncorrectable old word leaves the result poisoned. -/
def State.putEnabled (s : State) (src a : Nat) (v : Word) (en : BitVec 4) (poison : Bool) : State :=
  if en = 0 then s
  else if en = 15 then s.putWord a v poison
  else
    let ((old, p), s) := s.getWord src a
    s.putWord a (mergeBytes old v en) (poison || p)

/-- Writes a run of bytes at any byte address, with the poison state of the write (R86, R381). -/
def State.putBytes (s : State) (src a : Nat) (poison : Bool) (data : List Byte) : State :=
  let first := a / 4
  let last := (a + data.length - 1) / 4
  if data.isEmpty then s
  else (List.range (last - first + 1)).foldl (fun s i =>
    let wa := 4 * (first + i)
    let byte (k : Nat) : Byte := if a ≤ wa + k then data.getD (wa + k - a) 0 else 0
    let on (k : Nat) : Bool := decide (a ≤ wa + k ∧ wa + k < a + data.length)
    let en : BitVec 4 := BitVec.ofNat 4 ((if on 0 then 1 else 0) + (if on 1 then 2 else 0) + (if on 2 then 4 else 0) + (if on 3 then 8 else 0))
    s.putEnabled src wa (byte 3 ++ byte 2 ++ byte 1 ++ byte 0) en poison) s

/-- The bytes of a list of words, little-endian. -/
def bytesOfWords (l : List Word) : List Byte := l.flatMap (fun w => [byteOf w 0, byteOf w 1, byteOf w 2, byteOf w 3])

/-- The words of a list of bytes, little-endian. -/
def wordsOfBytes : List Byte → List Word
  | a :: b :: c :: d :: r => (d ++ c ++ b ++ a) :: wordsOfBytes r
  | [] => []
  | l => [l.getD 3 0 ++ l.getD 2 0 ++ l.getD 1 0 ++ l.getD 0 0]

/-- Reads `n` bytes from a word-aligned address; the poison is that of the words. -/
def State.getBytes (s : State) (src a n : Nat) : (List Byte × Bool) × State :=
  let ((ws, p), s) := s.getWords src a ((n + 3) / 4)
  (((bytesOfWords ws).take n, p), s)

/-! ### Memory-side operations (R77, R81) -/

/-- One of the operations of R77. -/
inductive MsOp where
  | compare (cond : Nat) (a : Word) (delta : BitVec 16)
  | add (x : Word)
  | swap (e n : Word)
  deriving DecidableEq, Repr

/-- Performs a memory-side operation on the word at `a` (R77); a poisoned word is not changed (R81). -/
def State.msPerform (s : State) (src a : Nat) (op : MsOp) : OpResult × State :=
  let ((w, p), s) := s.getWord src a
  if p then ({ old := w, flag := false, poison := true }, s)
  else
    match op with
    | .compare cond x delta =>
      let f := condHolds cond w x
      ({ old := w, flag := f, poison := false }, if f ∧ delta ≠ 0 then s.putWord a (w + delta.signExtend 32) else s)
    | .add x => ({ old := w, flag := true, poison := false }, s.putWord a (w + x))
    | .swap e n => ({ old := w, flag := w == e, poison := false }, if w = e then s.putWord a n else s)

/-- What became of a blocking operation (R78): performed or answered with poison, parked, or refused by a full list. -/
inductive Blocking where
  | result (r : OpResult)
  | parked
  | full
  deriving DecidableEq, Repr

/-- Parks a watch where its octet's list has room, else counts the refusal (R78). -/
def State.park (s : State) (w : Watch) : Bool × State :=
  match storeOf w.addr with
  | none => (false, s)
  | some st =>
    let key := watchKey st (octetOf st w.addr)
    let l := s.stores.watches.look key []
    if l.length < 8 then
      let s := { s with stores := { s.stores with watches := s.stores.watches.put key (l ++ [w]) } }
      (true, s.setFld F.STO_WATCH_PEAK (max (s.fld F.STO_WATCH_PEAK st) (l.length + 1)) st)
    else (false, (s.addSat F.STO_WATCH_FULL 1 st).setBit F.STO_EVT_WATCH_FULL st)

/-- A blocking compare or compare-and-count of engine `e` (R78, R81). -/
def State.msBlocking (s : State) (src : Nat) (w : Watch) : Blocking × State :=
  let (r, s) := s.msPerform src w.addr (.compare w.cond w.a w.delta)
  if r.poison || r.flag then (.result r, s)
  else
    let (ok, s) := s.park w
    (if ok then .parked else .full, s)

/-- Takes engine `e`'s watch out of every list (R82). -/
def State.dropWatches (s : State) (p : EngId → Bool) : State :=
  { s with stores := { s.stores with
      watches := s.stores.watches.map (fun c => (c.1, c.2.filter (fun w => !p w.e))),
      results := s.stores.results.filter (fun r => !p r.1) } }

/-! ### Check values -/

/-- One bit of the reflected CRC-32C (polynomial 0x1EDC_6F41, R160). -/
def crc32cBit (c : Word) : Word := if c.getLsbD 0 then (c >>> 1) ^^^ 0x82F63B78 else c >>> 1

/-- One byte of CRC-32C. -/
def crc32cByte (c : Word) (b : Byte) : Word :=
  crc32cBit (crc32cBit (crc32cBit (crc32cBit (crc32cBit (crc32cBit (crc32cBit (crc32cBit (c ^^^ b.setWidth 32))))))))

/-- The running CRC-32C register over a list of bytes, without final inversion (R160). -/
def crc32cRun (c : Word) (l : List Byte) : Word := l.foldl crc32cByte c

/-- CRC-32C of a list of bytes: initial value all ones, final inversion (R358). -/
def crc32c (l : List Byte) : Word := ~~~ crc32cRun 0xFFFFFFFF l

/-- One bit of CRC-64/ECMA-182 (R265). -/
def crc64Bit (c : BitVec 64) : BitVec 64 := if c.msb then (c <<< 1) ^^^ 0x42F0E1EBA9EA3693 else c <<< 1

/-- One byte of CRC-64/ECMA-182. -/
def crc64Byte (c : BitVec 64) (b : Byte) : BitVec 64 :=
  crc64Bit (crc64Bit (crc64Bit (crc64Bit (crc64Bit (crc64Bit (crc64Bit (crc64Bit (c ^^^ (b.setWidth 64 <<< 56)))))))))

/-- CRC-64/ECMA-182 of a list of bytes from a seed (R265). -/
def crc64 (seed : BitVec 64) (l : List Byte) : BitVec 64 := l.foldl crc64Byte seed

end Sys2Proof.Machine
end

