-- ==== Sys2Proof/Machine/Ports.lean ====
section
/-! DEFINITION. The values in force of the shadowed registers, the line a raster is at, and the ports of the stores: wheels (R70,
R71), accesses of units (R66 to R69), the requester classes of the system ports (R74), the fabric bridge (R75), and the port of
the colour-volume store (R76). -/

namespace Sys2Proof.Machine

/-! ### Values in force -/

/-- A field of a shadowed register as it is in force. -/
def State.frc (s : State) (f : RegField) (i : Nat := 0) (j : Nat := 0) : Nat :=
  f.get (s.force.look (regKey f.reg i j) (regReset f.reg i j))

/-- A signed field in force. -/
def State.sfrc (s : State) (f : RegField) (i : Nat := 0) (j : Nat := 0) : Int := signedOf (f.hi - f.lo + 1) (s.frc f i j)

/-- Brings a register's shadow into force. -/
def State.take (s : State) (r : RegId) (i : Nat := 0) (j : Nat := 0) : State :=
  { s with force := s.force.set (regKey r i j) (regReset r i j) (s.rd r i j) }

/-- The layer that shows stream `x` (R325). -/
def State.layerOf (s : State) (x : Nat) : Option Nat :=
  (List.range' 1 7).find? (fun l => s.frc F.LAY_CTRL_EN l == 1 && s.frc F.LAY_CTRL_KIND l == x + 1)

/-- Whether SRC1 is in TAKEOVER (R356). -/
def State.inTakeover (s : State) : Bool := s.frc F.SRC_CTRL_MODE 1 == 2

/-- The raster that path `x` feeds: raster 1 for path 1 in TAKEOVER (R357). -/
def State.pathRaster (s : State) (x : Nat) : Nat := if x = 1 ∧ s.inTakeover then 1 else 0

/-- Raster `r`. -/
def State.raster (s : State) (r : Nat) : Raster := s.rasters.look r {}

/-- Whether a raster runs. -/
def State.running (s : State) (r : Nat) : Bool := s.bit F.TMG_STATUS_RUNNING r

/-- The line period of a raster in ns. -/
def State.linePeriod (s : State) (r : Nat) : Rat :=
  ((s.frc F.TMG_H_HTOTAL r * 1000000 : Nat) : Rat) / ((s.frc F.TMG_PCLK_KHZ r : Nat) : Rat)

/-- The line a raster is at: line 0 of a frame's active lines follows the blanking that began at its last boundary; a positive trim
raises the clock (R353, R354, R412).
(DESIGN CHOICE, log entry 194.) -/
def State.rasterLine (s : State) (r : Nat) : Nat :=
  let period := s.linePeriod r / (1 + s.tu.trim.look r 0)
  let gone : Int := if period = 0 then 0 else (((s.elapsed (s.raster r).boundaryAt : Nat) : Rat) / period).floor
  ((s.frc F.TMG_V_VACT r + gone) % max 1 (s.frc F.TMG_V_VTOTAL r + (s.raster r).adj)).toNat

/-! ### Wheels (R70 to R73, R75) -/

/-- Who uses a store: a core, a member of a requester class of the system ports, or a unit at a port of its own (R73, R74). -/
inductive Requester where
  | core (c : Nat)
  | sys (cls member : Nat)
  | unit (port : Nat)
  deriving DecidableEq, Repr

/-- The port a core uses at each store (R73, R75): its own, or the fabric bridge of the display store. -/
def corePort (c store : Nat) : Nat := if store = 4 then 6 else c

/-- The system port of each store, or the fabric bridge (R73, R75). -/
def sysPort (store : Nat) : Nat := [32, 34, 32, 0, 6].getD store 0

/-- The port at which a requester's accesses to a store wait. -/
def Requester.port (r : Requester) (store : Nat) : Nat :=
  match r with
  | .core c => corePort c store
  | .sys _ _ => sysPort store
  | .unit p => p

/-- The requester that uses port `p` of a store where it is no core: at the system port, the model-library loader's class (R74). -/
def requesterAt (p store : Nat) : Requester := if p = sysPort store then .sys 3 0 else .unit p

/-- Turns a store's wheel to the step that connects `port` to `octet`, and past it (R70, R71). -/
def State.turnWheel (s : State) (store port octet : Nat) : State :=
  let k := s.stores.wheel.look store 0
  let g := octets store
  let wait := (octet + 2 * g - port % g - k % g) % g
  { s with stores := { s.stores with wheel := s.stores.wheel.put store (k + wait + 1) } }

/-- The display clock in kHz: the pixel rate divided by 4, or by 2 in TAKEOVER (R39, R353). -/
def State.displaySteps (s : State) : Nat :=
  let f := s.frc F.TMG_PCLK_KHZ 0 * (if s.inTakeover then 2 else 1)
  f * (s.time + 1) / 4000000 - f * s.time / 4000000

/-- A nanosecond in which no command comes: the counter C advances, and every wheel turns (R70, R394): those of the colour-volume
and display stores by the display clocks in it, those of the self-timed stores by a free number of steps, for no register gives
a store's rate (R35). (DESIGN CHOICE, log entries 11 and 215.) -/
def State.idle (s : State) : State :=
  let (g, s) := s.draw
  let n := s.displaySteps
  let steps (i : Nat) : Nat := if 3 ≤ i then n else Config.freeNat g i
  { s with
    time := (s.time + 1) % 2 ^ 64
    stores := { s.stores with wheel := (List.range 5).foldl (fun w i => w.put i (w.look i 0 + steps i)) s.stores.wheel } }

/-! ### Accesses at ports (R66, R68, R69, R71, R76, R77, R88) -/

/-- Whether port 0 of the colour-volume store waits for vertical blanking: mapping is enabled and the raster is in its active lines
(R76). (DEDUCED, log entry 216.) -/
def State.cvWaits (s : State) : Bool :=
  s.bit F.CV_STATUS_EN && s.running 0 && decide (s.rasterLine 0 < s.frc F.TMG_V_VACT 0)

/-- Whether an access at an address is performed when its connection comes: not before INIT_DONE (R88), and at port 0 of the
colour-volume store in blanking only, while mapping is enabled (R76). -/
def State.opens (s : State) (a : Nat) : Bool :=
  match storeOf a with
  | none => true
  | some st => s.bit F.STO_STATUS_INIT_DONE && !(st == 3 && s.cvWaits)

/-- The number of words of a port's access. -/
def portLen : PortOp → Nat
  | .read n => n
  | .write d _ => d.length
  | _ => 1

/-- Whether an access of a unit at a store is legal (R66, R68, R77, R90). -/
def State.portOk (s : State) (store a : Nat) (op : PortOp) : Bool :=
  let ms : Bool := match op with
    | .read _ => false
    | .write _ _ => false
    | _ => true
  storeOf a == some store && s.storeOk a (portLen op) && !(ms && store == 3)

/-- Performs an access of a unit at a store port in the step that connects it, with its answer left in `portWords`; one that is
not legal is refused and performs nothing (R66, R68, R69, R77). (DEDUCED, log entry 172.) -/
def State.portAccess (s : State) (store port : Nat) (a : Nat) (op : PortOp) : State :=
  if !s.portOk store a op then s
  else
    let s := s.turnWheel store port (octetOf store a)
    let answer (r : OpResult × State) : State := { r.2 with portWords := [r.1.old], portFlag := r.1.flag, portPoison := r.1.poison }
    match op with
    | .read n =>
      let ((ws, p), s) := s.getWords port a n
      { s with portWords := ws, portFlag := false, portPoison := p }
    | .write d p =>
      (List.range d.length).foldl (fun (s : State) i => s.putEnabled port (a + 4 * i) (d.getD i (0, 0)).1 (d.getD i (0, 0)).2 p)
        { s with portWords := [], portFlag := false, portPoison := false }
    | .compareCount cond x delta => answer (s.msPerform port a (.compare cond x delta))
    | .add x => answer (s.msPerform port a (.add x))
    | .compareSwap e n => answer (s.msPerform port a (.swap e n))

/-! ### The system ports (R74) -/

/-- The place of a class at a store's system port. -/
def slotKey (store cls : Nat) : Nat := 5 * store + cls

/-- A requester presents an access at a system port: it takes its class's place there, or waits for it (R74). -/
def State.enterSys (s : State) (store : Nat) (r : SysAccess) : State :=
  let k := slotKey store r.cls
  { s with stores :=
      if s.stores.slots.has k then { s.stores with waits := s.stores.waits ++ [(k, r)] }
      else { s.stores with slots := s.stores.slots.put k r } }

/-- Of the members of a class that wait, the first in round-robin order after member `last` (R74). -/
def nextMember (last : Nat) : List SysAccess → Option SysAccess
  | [] => none
  | r :: l => match nextMember last l with
    | none => some r
    | some q => if (q.member + 31 - last) % 32 < (r.member + 31 - last) % 32 then some q else some r

/-- Takes the access of a class from the system port: its turn is recorded, and the next member's access takes the place. -/
def State.leaveSys (s : State) (store : Nat) (r : SysAccess) : State :=
  let k := slotKey store r.cls
  let u := { s.stores with slots := s.stores.slots.del k, lastClass := s.stores.lastClass.put store r.cls, lastMember := s.stores.lastMember.put k r.member }
  { s with stores := match nextMember r.member ((u.waits.filter (fun w => w.1 == k)).map (fun w => w.2)) with
      | none => u
      | some q => { u with slots := u.slots.put k q, waits := u.waits.erase (k, q) } }

/-- The access that a system port serves next: the classes take turns in round-robin order (R74), the keepers' first.
(DESIGN CHOICE, log entry 217.) -/
def State.nextSys (s : State) (store : Nat) : Option SysAccess :=
  let last := s.stores.lastClass.look store 4
  (List.range 5).findSome? (fun i => (s.stores.slots.find? (fun c => c.1 == slotKey store ((last + 1 + i) % 5))).map (fun c => c.2))

/-- The system port serves the access whose turn it is. -/
def State.serveSys (s : State) (store : Nat) : State :=
  match s.nextSys store with
  | none => s
  | some r =>
    let s := s.leaveSys store r
    match r.op with
    | some op => s.portAccess store (sysPort store) r.addr op
    | none => s

/-- Serves the accesses that have their turn before the access of the command under way. -/
def State.serveUntil (s : State) (store : Nat) : Nat → State
  | 0 => s
  | fuel + 1 => match s.nextSys store with
    | some r => if r.op.isNone then s.leaveSys store r else State.serveUntil (s.serveSys store) store fuel
    | none => s

/-- The turn of a class's member at a system port (R74): its access is presented, and every access with an earlier turn is served
first. -/
def State.sysTurn (s : State) (store cls member : Nat) : State :=
  let s := s.enterSys store { cls := cls, member := member, addr := 0, op := none }
  s.serveUntil store (s.stores.slots.length + s.stores.waits.length)

/-! ### The fabric bridge (R75) -/

/-- Performs what waits in the fabric bridge, in arrival order: an access that comes after it through port 6 finds it done (R75). -/
def State.drainBridge (s : State) : State :=
  s.stores.bridge.foldl (fun s r => match r.op with
    | some op => s.portAccess 4 6 r.addr op
    | none => s) { s with stores := { s.stores with bridge := [] } }

/-! ### An access of a command (R70, R71, R74, R75) -/

/-- What precedes an access of a requester to a store: at a system port the turns before its own, at the fabric bridge what came
before it. -/
def State.before (s : State) (who : Requester) (store : Nat) : State :=
  if who.port store = 6 ∧ store = 4 then s.drainBridge
  else match who with
    | .sys cls m => s.sysTurn store cls m
    | _ => s

/-- An access of a requester at address `a` gets its connection: its turn comes, and the store's wheel turns to it. -/
def State.turnFor (s : State) (who : Requester) (a : Nat) : State :=
  match storeOf a with
  | none => s
  | some st => (s.before who st).turnWheel st (who.port st) (octetOf st a)

/-- The accesses of a requester to a range of bytes, one for each block (R68): the wheel turns to each. -/
def State.turnSpan (s : State) (who : Requester) (a n : Nat) : State :=
  if n = 0 then s
  else (List.range ((a + n - 1) / 256 - a / 256 + 1)).foldl (fun s i => s.turnFor who ((a / 256 + i) * 256)) s

/-- An access of a unit at a port of its own, or in the loader's class at a system port (R73, R74). -/
def State.portServe (s : State) (store port a : Nat) (op : PortOp) : State :=
  if s.opens a && s.portOk store a op then (s.before (requesterAt port store) store).portAccess store port a op else s

/-- A requester of the system port of a store presents an access; at the display store it enters the fabric bridge's buffer, and
is held off while that is full (R74, R75). -/
def State.requestSys (s : State) (store : Nat) (r : SysAccess) : State :=
  if store ≠ 4 then s.enterSys store r
  else if s.stores.bridge.length < 64 then { s with stores := { s.stores with bridge := s.stores.bridge ++ [r] } }
  else s

/-- A system port, or the fabric bridge, performs the access it serves next (R74, R75). -/
def State.serveNext (s : State) (store : Nat) : State :=
  if !s.opens (storeBase store) then s
  else if store ≠ 4 then s.serveSys store
  else match s.stores.bridge with
    | [] => s
    | r :: l =>
      let s := { s with stores := { s.stores with bridge := l } }
      match r.op with
      | some op => s.portAccess 4 6 r.addr op
      | none => s

/-- Whether nothing waits that an access to address `a` would have to wait for, at the system port or the bridge of its store. -/
def State.portFree (s : State) (a : Nat) : Bool :=
  match storeOf a with
  | none => true
  | some st => (List.range 5).all (fun c => !s.stores.slots.has (slotKey st c)) && s.stores.waits.isEmpty && s.stores.bridge.isEmpty

end Sys2Proof.Machine
end

