-- ==== Sys2Proof/Machine/Operands.lean ====
section
/-! DEFINITION. Operand forms: the registers of an engine, the fields of the instruction formats (R137, R177), the fields of
a tensor descriptor (R163 to R166), and elements in memory and in words (R171). -/

namespace Sys2Proof

/-! ### Instruction fields -/

/-- Bits [hi:lo] of the operand field. -/
def KBits.f (b : KBits) (hi lo : Nat) : Nat := (b.ops.toNat >>> lo) % 2 ^ (hi - lo + 1)

/-- Whether bits [hi:lo] of the operand field are zero, as a format marks them (R131). -/
def KBits.z (b : KBits) (hi lo : Nat) : Bool := b.f hi lo == 0

/-- Bits [31:0] of the operand field as an immediate. -/
def KBits.imm (b : KBits) : Word := b.ops.extractLsb' 0 32

end Sys2Proof

namespace Sys2Proof.Machine

/-! ### Engines and their registers (R127) -/

/-- The engine a command names. -/
def State.eng (s : State) : EngId → Engine
  | .fetch c => (s.core c).fetch
  | .execute c => (s.core c).exec
  | .keeper k => (s.keeper k).eng

/-- Replaces an engine. -/
def State.setEng (s : State) (e : EngId) (x : Engine) : State :=
  match e with
  | .fetch c => s.updCore c (fun k => { k with fetch := x })
  | .execute c => s.updCore c (fun k => { k with exec := x })
  | .keeper k => s.updKeeper k (fun v => { v with eng := x })

/-- Changes an engine. -/
def State.updEng (s : State) (e : EngId) (f : Engine → Engine) : State := s.setEng e (f (s.eng e))

/-- Scalar register `r`; S0 reads zero (R127). -/
def Engine.rs (x : Engine) (r : Nat) : Word := if r = 0 then 0 else x.s.look r 0
/-- Writes scalar register `r`; writes to S0 are discarded (R127). -/
def Engine.ws (x : Engine) (r : Nat) (v : Word) : Engine := if r = 0 then x else { x with s := x.s.set r 0 v }
/-- Address register `r`. -/
def Engine.ra (x : Engine) (r : Nat) : Addr := x.a.look r 0
/-- Writes address register `r`. -/
def Engine.wa (x : Engine) (r : Nat) (v : Addr) : Engine := { x with a := x.a.set r 0 v }
/-- Predicate register `r`; P0 reads one (R127). -/
def Engine.rp (x : Engine) (r : Nat) : Bool := if r = 0 then true else x.p.look r false
/-- Writes predicate register `r`; writes to P0 are discarded (R127). -/
def Engine.wp (x : Engine) (r : Nat) (v : Bool) : Engine := if r = 0 then x else { x with p := x.p.set r false v }
/-- Descriptor register `r`. -/
def Engine.rdesc (x : Engine) (r : Nat) : BitVec 256 := x.d.look r 0
/-- Writes descriptor register `r`. -/
def Engine.wdesc (x : Engine) (r : Nat) (v : BitVec 256) : Engine := { x with d := x.d.set r 0 v }
/-- Loop counter `r`. -/
def Engine.rn (x : Engine) (r : Nat) : Word := x.n.look r 0
/-- Writes loop counter `r`. -/
def Engine.wn (x : Engine) (r : Nat) (v : Word) : Engine := { x with n := x.n.set r 0 v }

/-- A guard is true when P[GP] XOR GN is one (R130). -/
def Engine.guard (x : Engine) (b : KBits) : Bool := x.rp b.gp != b.gn

/-! ### Descriptors (R163 to R166) -/

/-- The fields of a tensor descriptor (R163). -/
structure Desc where
  base : Nat
  ty : Nat
  pmode : Nat
  zc : Bool
  rsv : Bool
  zp : Int
  plan : Nat
  e0 : Nat
  e1 : Nat
  e2 : Nat
  e3 : Nat
  str1 : Nat
  str2 : Nat
  str3 : Nat
  pl : Nat
  pr : Nat
  pt : Nat
  pb : Nat
  pconst : Nat
  deriving DecidableEq, Repr

/-- Word `w` of a descriptor register (R148). -/
def descWord (d : BitVec 256) (w : Nat) : Word := d.extractLsb' (32 * w) 32

/-- Replaces word `w` of a descriptor register (R148). -/
def setDescWord (d : BitVec 256) (w : Nat) (v : Word) : BitVec 256 :=
  (d &&& ~~~((0xFFFFFFFF : BitVec 256) <<< (32 * w))) ||| ((v.setWidth 256) <<< (32 * w))

/-- Bits [hi:lo] of word `w` of a descriptor register. -/
def descBits (d : BitVec 256) (w hi lo : Nat) : Nat := ((descWord d w).toNat >>> lo) % 2 ^ (hi - lo + 1)

/-- Reads a descriptor's fields out (R163). -/
def Desc.of (d : BitVec 256) : Desc :=
  { base := descBits d 0 31 0 + 2 ^ 32 * descBits d 1 7 0
    ty := descBits d 1 11 8
    pmode := descBits d 1 13 12
    zc := descBits d 1 14 14 == 1
    rsv := descBits d 1 15 15 == 1
    zp := signedOf 9 (descBits d 1 24 16)
    plan := descBits d 1 31 25
    e0 := descBits d 2 15 0
    e1 := descBits d 2 31 16
    e2 := descBits d 3 15 0
    e3 := descBits d 3 31 16
    str1 := descBits d 4 31 0
    str2 := descBits d 5 31 0
    str3 := descBits d 6 31 0
    pl := descBits d 7 5 0
    pr := descBits d 7 11 6
    pt := descBits d 7 17 12
    pb := descBits d 7 23 18
    pconst := descBits d 7 31 24 }

/-- Element width in bits by TYPE (R164). -/
def typeBits (ty : Nat) : Nat := [4, 8, 8, 16, 32, 16, 32].getD ty 32

/-- The zero-point range of each TYPE (R164). -/
def zpOk (ty : Nat) (zp : Int) : Bool :=
  match ty with
  | 0 => decide (-8 ≤ zp ∧ zp ≤ 7)
  | 1 => decide (-128 ≤ zp ∧ zp ≤ 127)
  | 2 => decide (0 ≤ zp ∧ zp ≤ 255)
  | _ => zp == 0

/-- The field checks of R166 that every user of a descriptor makes. (DESIGN CHOICE, log entry 157.) -/
def Desc.fieldsOk (d : Desc) : Bool :=
  decide (d.ty ≤ 6) && decide (d.pmode ≤ 2) && zpOk d.ty d.zp && !(d.pmode == 1 && decide (8 < typeBits d.ty)) && !d.rsv

/-- The width of an input row: PL + E0 + PR (R171, R199). -/
def Desc.win (d : Desc) : Nat := d.pl + d.e0 + d.pr

/-- Words of an entry of `n` elements (R171). -/
def entryWords (ty n : Nat) : Nat := (n * typeBits ty + 31) / 32

/-- Byte address of element (x, y, c, k), modulo the address space, with a signed column and row (R163). -/
def Desc.addr (d : Desc) (x y : Int) (c k : Nat) : Nat :=
  lowBits 40 ((d.base : Int) + (x * typeBits d.ty) / 8 + y * d.str1 + (c : Int) * d.str2 + (k : Int) * d.str3)

/-! ### Elements (R163, R164, R171) -/

/-- The value of raw element bits of a TYPE: two's complement or unsigned; an I12 takes its low twelve bits (R164). -/
def elemValue (ty : Nat) (raw : Nat) : Int :=
  match ty with
  | 0 => signedOf 4 raw
  | 1 => signedOf 8 raw
  | 2 => (raw % 256 : Nat)
  | 3 => signedOf 12 raw
  | 4 => signedOf 32 raw
  | 5 => (raw % 65536 : Nat)
  | _ => (raw % 2 ^ 32 : Nat)

/-- The raw bits a value is stored as: the low bits of the type, with an I12's sign copied into its container (R164). -/
def elemRaw (ty : Nat) (v : Int) : Nat := lowBits (typeBits ty) (if ty = 3 then signedOf 12 (lowBits 12 v) else v)

/-- Raw bits of element `x` of packed words (R171). -/
def packedElem (ty : Nat) (ws : List Word) (x : Nat) : Nat :=
  let bits := typeBits ty
  let p := x * bits
  ((ws.getD (p / 32) 0).toNat >>> (p % 32)) % 2 ^ bits

/-- Packs raw elements into words from bit 0, the bits above the last element zero (R171). -/
def packWords (ty : Nat) (l : List Nat) : List Word :=
  let bits := typeBits ty
  let per := 32 / bits
  (List.range ((l.length + per - 1) / per)).map (fun w =>
    BitVec.ofNat 32 ((List.range per).foldl (fun acc i => acc + (l.getD (w * per + i) 0 % 2 ^ bits) * 2 ^ (bits * i)) 0))

/-- The pad value of R165 as raw bits, for ZERO and CONST. -/
def padRaw (d : Desc) : Nat := if d.pmode = 1 then d.pconst % 2 ^ typeBits d.ty else elemRaw d.ty d.zp

/-- The limits E0 to E3 of a shape-limit entry (R518): 16 bits each; a core with no table has no limits. -/
def limitOf (t : Option (Sparse (BitVec 64))) (plan i : Nat) : Nat :=
  match t with
  | none => 65535
  | some m => ((m.look plan 0).toNat / 2 ^ (16 * i)) % 65536

/-- Whether an extent of the descriptor exceeds entry PLAN of the shape-limit table (R168, R206). -/
def Desc.over (d : Desc) (t : Option (Sparse (BitVec 64))) : Bool :=
  decide (limitOf t d.plan 0 < d.e0) || decide (limitOf t d.plan 1 < d.e1) || decide (limitOf t d.plan 2 < d.e2) ||
    decide (limitOf t d.plan 3 < d.e3)

end Sys2Proof.Machine
end

