-- ==== Sys2Proof/Machine/Flags.lean ====
section
/-! DEFINITION. The predicate computations: the compare conditions of CMP and CMPI and the truth tables of PLOG (R140), and
rounding and saturation, on which results and flags rest (R250, R256). -/

namespace Sys2Proof.Machine

/-- The conditions of CMP and CMPI by their codes (R140). -/
def cmpCond (cond : Nat) (a b : Word) : Bool :=
  match cond with
  | 0 => a == b
  | 1 => a != b
  | 2 => decide (a.toInt < b.toInt)
  | 3 => decide (b.toInt ≤ a.toInt)
  | 4 => decide (a.toNat < b.toNat)
  | _ => decide (b.toNat ≤ a.toNat)

/-- Bit (2 × Pa + Pb) of the truth table tt (R140). -/
def plogBit (tt : Nat) (pa pb : Bool) : Bool := tt.testBit ((if pa then 2 else 0) + (if pb then 1 else 0))

/-- Saturation to the I32 range (R250). -/
def sat32 (x : Int) : Int := clampInt (-(2 ^ 31)) (2 ^ 31 - 1) x

/-- A word of a signed value. -/
def wordOf (x : Int) : Word := BitVec.ofInt 32 x

/-- Division by 2^s, rounded to nearest with ties to even (R256). -/
def roundShift (p : Int) (s : Nat) : Int :=
  if s = 0 then p
  else
    let f := p / 2 ^ s
    let rem := p - f * 2 ^ s
    if 2 ^ (s - 1) < rem ∨ rem = 2 ^ (s - 1) ∧ f % 2 = 1 then f + 1 else f

/-- Division by a positive number, rounded to nearest with ties to even. -/
def roundDiv (p : Int) (d : Nat) : Int :=
  let f := p / d
  let rem := p - f * d
  if (d : Int) < 2 * rem ∨ 2 * rem = d ∧ f % 2 = 1 then f + 1 else f

end Sys2Proof.Machine
end

