-- ==== Sys2Proof/Machine/Rail.lean ====
section
/-! DEFINITION. Calibration (R58 to R60, R63) and the limits of the core rail (R43, R44, R62). -/

namespace Sys2Proof.Machine

/-! ### Effective values (R58) -/

/-- The effective floor voltages of a core, mV: factory value plus offset, within the factory limits. -/
def State.effVf25 (s : State) (c : Nat) : Int :=
  clampInt (s.fld F.CAL_FLIM_V_VF_MIN) (s.fld F.CAL_FLIM_V_VF_MAX) (s.fld F.CAL_FV_VF25 c + s.sfld F.CAL_USER_VOFS c)

/-- As `State.effVf25`, at 105 °C. -/
def State.effVf105 (s : State) (c : Nat) : Int :=
  clampInt (s.fld F.CAL_FLIM_V_VF_MIN) (s.fld F.CAL_FLIM_V_VF_MAX) (s.fld F.CAL_FV_VF105 c + s.sfld F.CAL_USER_VOFS c)

/-- The effective monitor gain of a core. -/
def State.effGain (s : State) (c : Nat) : Int :=
  clampInt (s.fld F.CAL_FLIM_G_G_MIN) (s.fld F.CAL_FLIM_G_G_MAX) (s.fld F.CAL_FGT_GAIN c + s.sfld F.CAL_USER_GOFS c)

/-- The effective temperature correction of a core, 0.125 °C. -/
def State.effTrim (s : State) (c : Nat) : Int :=
  clampInt (-(s.fld F.CAL_FLIM_T_T_LIM : Int)) (s.fld F.CAL_FLIM_T_T_LIM) (s.sfld F.CAL_FGT_TTRIM c + s.sfld F.CAL_USER_TOFS c)

/-- The effective junction temperature of a core, 0.125 °C. -/
def State.effTemp (s : State) (c : Nat) : Int := (s.core c).tempReading + s.effTrim c

/-- Whether a clamp of R58 is active for a core. -/
def State.clamped (s : State) (c : Nat) : Bool :=
  s.effVf25 c != s.fld F.CAL_FV_VF25 c + s.sfld F.CAL_USER_VOFS c ||
    s.effVf105 c != s.fld F.CAL_FV_VF105 c + s.sfld F.CAL_USER_VOFS c ||
    s.effGain c != s.fld F.CAL_FGT_GAIN c + s.sfld F.CAL_USER_GOFS c ||
    s.effTrim c != s.sfld F.CAL_FGT_TTRIM c + s.sfld F.CAL_USER_TOFS c

/-- Sets the CAL_CLAMP bit of a core whose clamp is active (R58). (DEDUCED, log entry 181.) -/
def State.noteClamp (s : State) (c : Nat) : State := if s.clamped c then s.setBit F.CAL_CLAMP_CLAMP c else s

/-! ### V_low and the upper limit (R44) -/

/-- Whether a core's CORE_EN bit is set. -/
def State.coreOn (s : State) (c : Nat) : Bool := (s.fld F.CORE_EN_EN).testBit c

/-- v_c of R44: the floor voltage at the effective temperature held to 25 to 105 °C, rounded to 1 mV, ties to even. -/
def State.coreFloor (s : State) (c : Nat) : Int :=
  let t := clampInt 200 840 (s.effTemp c)
  roundDiv (s.effVf25 c * 640 + (s.effVf105 c - s.effVf25 c) * (t - 200)) 640

/-- V_low, mV (R44, R62). -/
def State.vLow (s : State) : Int :=
  let on := (List.range 32).filter s.coreOn
  let floor : Int := match on with
    | [] => 0
    | c :: r => r.foldl (fun m d => max m (s.coreFloor d)) (s.coreFloor c) + s.fld F.BELAY_VLIM_GUARD
  let v := max floor (max 550 (s.fld F.BELAY_VLIM_VMIN : Int))
  (v + 4) / 5 * 5

/-- V_high, mV (R44, R62). -/
def State.vHigh (s : State) : Int := (min 850 (s.fld F.BELAY_VLIM_VMAX) / 5 * 5 : Nat)

/-- Whether V_low exceeds V_high (R44). -/
def State.railConflict (s : State) : Bool := decide (s.vHigh < s.vLow)

/-- The lower and upper limits of the rail in force (R44). (DEDUCED, log entry 193.) -/
def State.railLimits (s : State) : Int × Int :=
  if s.railConflict then (min s.vLow 850, min s.vLow 850) else (s.vLow, s.vHigh)

/-- Sets VLIM_CONFLICT where V_low has come to exceed V_high (R44). -/
def State.noteVlow (s : State) : State :=
  let now := s.railConflict
  let s := if now && !s.fab.conflict then s.setBit F.BELAY_EVT_VLIM_CONFLICT else s
  { s with fab := { s.fab with conflict := now } }

/-! ### The rail (R49, R62) -/

/-- The voltage of the rail: the last commanded, or the regulator's own before the first command (R52, R501).
(DEDUCED, log entry 28.) -/
def State.railNow (s : State) : Int := (s.fab.rail.getD Config.powerUpRail : Nat)

end Sys2Proof.Machine
end

