-- ==== Sys2Proof/Machine/Engine.lean ====
section
/-! DEFINITION. How an engine takes an instruction: who takes it (R132, R156), the checks made whatever the guard (R130,
R131), completion and loop ends (R132, R146), blocking (R107), instruction faults (R157, R158, R426), and the stops and
starts of a core (R105 to R108). -/

namespace Sys2Proof.Machine

/-! ### Fault codes (R481) -/

def codeShapeOver : Nat := 0x01
def codeSlotTimeout : Nat := 0x02
def codeSlotPoison : Nat := 0x03
def codeDescInvalid : Nat := 0x04
def codeAddrRange : Nat := 0x05
def codeIllegal : Nat := 0x13

/-! ### Stopping and starting cores -/

/-- An engine that a STOP stops: it waits for nothing, and nothing it has received is kept. -/
def Engine.empty (x : Engine) : Engine :=
  { x with
    stopped := true, wait := .none, withdraw := false, expired := false, got := none, fence := none, loaded := none, stall := none
    since := none, atHalt := false }

/-- Empties what a STOP empties and makes undefined what it leaves undefined (R98, R100, R105, R108, R172, R257): queues and
tiles are emptied, parked watches withdrawn, streams and waiting instructions abandoned; the accumulators, weight planes and
requantiser table hold free values of a new generation. -/
def State.emptyCore (s : State) (c : Nat) : State :=
  let (g, s) := s.draw
  let s := s.dropWatches (fun e => e == .fetch (Fin.ofNat 32 c))
  s.updCore c (fun k =>
    { k with
      fetch := k.fetch.empty, exec := k.exec.empty
      fwd := [], queues := [], tiles := [], loadPtr := 0, lastTaken := none
      plane := none, shadow := none, bank := [], matRun := none, undo := none, emitted := 0, loadBuf := []
      acc := [], accPoison := [], accGen := g, table := [], tableGen := some g
      streams := [], accounts := [], haltReq := false })

/-- A core enters FAULTED with a cause (R105, R106, R108). -/
def State.faultCore (s : State) (c cause : Nat) : State :=
  (s.emptyCore c).updCore c (fun k => { k with state := 4, cause := cause }) |>.setBit F.CORE_EVT_FAULT 0 c

/-- A core whose engines have both stopped enters HALTED (R107, R155): with cause 1 if an engine stopped at a HALT, else 2. -/
def State.settleHalt (s : State) (c : Nat) : State :=
  let k := s.core c
  if k.state = 2 ∧ k.fetch.stopped ∧ k.exec.stopped then
    (s.updCore c (fun k => { k with state := 3, cause := if k.fetch.atHalt || k.exec.atHalt then 1 else 2, haltReq := false })).setBit
      F.CORE_EVT_HALTED 0 c
  else s

/-- An engine stops before the next instruction (R107): at once, or, where it has a watch parked, when the watch's withdrawal
has been carried out (R82). -/
def Engine.halt (x : Engine) : Engine :=
  if x.stopped then x
  else match x.wait with
    | .parked _ _ => if x.got.isSome then { x with stopped := true } else { x with withdraw := true }
    | _ => { x with stopped := true, fence := none, loaded := none, stall := none, since := none }

/-- The tiles of Q0 as a withdrawn instruction found them, each as sent as it is now, and those that have come since (R107). -/
def tilesBack (then_ now : List Tile) : List Tile :=
  then_.map (fun t => match now.find? (fun u => u.id == t.id) with
    | some u => { t with sent := u.sent }
    | none => { t with sent := true }) ++ now.filter (fun u => !then_.any (fun t => t.id == u.id))

/-- Puts entries back at the front of a queue. -/
def Core.putBack (k : Core) (q : Nat) (l : List QEntry) : Core :=
  if l = [] then k
  else { k with queues := k.queues.upd q {} (fun v => { v with entries := l ++ v.entries, outbound := false }) }

/-- A waiting instruction of the execute engine is withdrawn (R107): the entries it has taken go back to the front of their queues,
the tiles, planes and accumulators are as it found them, and the outputs that are still in their queue leave it; outputs that
a stream has taken already are not undone, and the instruction does not write them again.
(DESIGN CHOICE, log entry 219.) -/
def Core.withdraw (k : Core) : Core :=
  match k.exec.wait with
  | .blocked op b =>
    let undo := k.undo
    let k := { k.bank.foldl (fun (k : Core) c => k.putBack c.1 c.2) k with bank := [], matRun := none, undo := none }
    let k := match undo with
      | some u => { k with
          tiles := tilesBack u.tiles k.tiles, loadPtr := u.loadPtr, lastTaken := u.lastTaken, plane := u.plane, shadow := u.shadow
          acc := u.acc, accPoison := u.accPoison }
      | none => k
    if op = 0x98 then
      let q := b.f 49 47
      let n := Nat.min k.emitted (k.queues.look q {}).entries.length
      let k := { k.putBack q k.loadBuf with loadBuf := [] }
      if n = 0 then k
      else { k with
        emitted := k.emitted - n
        queues := k.queues.upd q {} (fun v => { v with entries := v.entries.take (v.entries.length - n) }) }
    else k
  | _ => k

/-- A HALT request of a RUNNING core (R106, R107). -/
def State.haltCore (s : State) (c : Nat) : State :=
  if (s.core c).state = 2 then
    (s.updCore c (fun k =>
      let k := if k.exec.stopped then k else k.withdraw
      { k with fetch := k.fetch.halt, exec := k.exec.halt, haltReq := true })).settleHalt c
  else s

/-- START (R106, R128, R222, R257): from READY both engines begin at instruction 0 with every register zero; from HALTED they
go on where they stopped. -/
def State.startCore (s : State) (c : Nat) : State :=
  let k := s.core c
  if k.state = 1 then
    s.setCore c { k with state := 2, fetch := {}, exec := {}, fwd := [], table := [], tableGen := none, taintIn := 0, taintOut := 0, slotCut := false }
  else if k.state = 3 then
    s.setCore c { k with
      state := 2, haltReq := false
      fetch := { k.fetch with stopped := false, atHalt := false }
      exec := { k.exec with stopped := false, atHalt := false } }
  else s

/-! ### Audits (R484) -/

/-- Whether a core is under audit (R484). -/
def State.underAudit (s : State) (c : Nat) : Bool :=
  match s.tst.audit with
  | some a => a.core == c
  | none => false

/-- Whether the audit program runs on a core (R483). -/
def State.auditRuns (s : State) (c : Nat) : Bool :=
  match s.tst.audit with
  | some a => a.core == c && a.running
  | none => false

/-- Whether the audit in progress pauses a core's slot watchdog: the core is bound to the same stream or the same skein (R218,
R484). -/
def State.auditPauses (s : State) (c : Nat) : Bool :=
  match s.tst.audit with
  | some a =>
    let bound (d : Nat) : Bool := s.bit F.CORE_BIND_VALID d
    bound c && bound a.core && (s.streamOf c == s.streamOf a.core && s.streamOf c != 2 ||
      s.fld F.CORE_BIND_SKEIN c == s.fld F.CORE_BIND_SKEIN a.core)
  | none => false

/-- A free descriptor. -/
def freeDesc (g i : Nat) : BitVec 256 :=
  let w (j : Nat) : Word := Config.freeWord g (8 * i + j)
  w 0 ++ w 1 ++ w 2 ++ w 3 ++ w 4 ++ w 5 ++ w 6 ++ w 7

/-- What a core holds that an audit program ran on and that was not restored (R484): free values in every register, and
nothing in its queues and streams. -/
def State.scramble (s : State) (c : Nat) : State :=
  let s := s.emptyCore c
  let (g, s) := s.draw
  let eng (n : Nat) : Engine :=
    { s := (List.range 32).map (fun i => (i, Config.freeWord g (n + i)))
      a := (List.range 16).map (fun i => (i, Config.freeWord g (n + 64 + i) ++ Config.freeByte g (n + i)))
      p := (List.range 8).map (fun i => (i, Config.freeBit g (n + i)))
      d := (List.range 32).map (fun i => (i, freeDesc g (n + 128 + i)))
      n := (List.range 4).map (fun i => (i, Config.freeWord g (n + 1024 + i)))
      pc := Config.freeNat g n % 8192, stopped := true }
  s.updCore c (fun k => { k with fetch := eng 0, exec := eng 2048, digest := Config.freeWord g 4096 ++ Config.freeWord g 4097 })

/-- The time an engine's timer started, after a pause from `from_` to now: what it had counted before the pause is kept. -/
def State.afterPause (s : State) (from_ t : Nat) : Nat :=
  (s.time + 2 ^ 64 - (s.elapsed t - s.elapsed from_)) % 2 ^ 64

/-- The audit in progress is over: the stalls whose receiver it was, and the slot watchdogs it paused, go on from where they stood
(R484). -/
def State.auditOver (s : State) : State :=
  match s.tst.audit with
  | none => s
  | some a =>
    let s' := (List.range 32).foldl (fun (t : State) d =>
      let x := (s.core d).fetch
      let stall := if s.bit F.CHAIN_CFG_NEXT_VALID d && s.fld F.CHAIN_CFG_NEXT d == a.core then
          x.stall.map (fun v => (s.afterPause a.since v.1, v.2)) else x.stall
      let since := if s.auditPauses d then x.since.map (s.afterPause a.since) else x.since
      if stall = x.stall ∧ since = x.since then t
      else t.updCore d (fun k => { k with fetch := { k.fetch with stall := stall, since := since } })) s
    { s' with tst := { s'.tst with audit := none } }

/-- A STOP, WITHDRAW or CHAIN_CUT request of a core under audit ends the audit, without a restore (R484); the CORE_EN bit, clear
only while the audit runs, is set again (R111). (DEDUCED, log entry 136.) -/
def State.endAudit (s : State) (c : Nat) : State :=
  if !s.underAudit c then s
  else
    let s := if s.auditRuns c then ((s.scramble c).setBit F.CORE_EN_EN c).noteVlow else s
    s.auditOver.setFld F.TST_STATUS_AUDIT_BUSY 0

/-- A STOP request (R106, R108); it ends an audit of the core (R484). -/
def State.stopCore (s : State) (c : Nat) : State :=
  let s := s.endAudit c
  if (s.core c).state = 2 ∨ (s.core c).state = 3 then s.faultCore c 3 else s

/-! ### Keepers -/

/-- A keeper instruction fault (R426): FAULTED, the first fault latched, PEER_FAULT for every other running keeper. -/
def State.faultKeeper (s : State) (k code pc : Nat) : State :=
  let s := s.updKeeper k (fun v => { v with state := 3, eng := { v.eng with wait := .none } })
  let s :=
    if s.bit F.KEP_FAULT_VALID k then s
    else ((s.setFld F.KEP_FAULT_CODE code k).setFld F.KEP_FAULT_PC pc k).setBit F.KEP_FAULT_VALID 0 k
  (List.range 4).foldl (fun s j => if j ≠ k ∧ (s.keeper j).state = 1 then s.setBit F.KEP_PEVT_PEER_FAULT 0 j else s) s

/-! ### Instruction faults (R157, R158) -/

/-- An instruction fault of an engine at instruction `pc`, with the details of its record (R481). -/
def State.instrFaultAt (s : State) (e : EngId) (pc code : Nat) (d0 d1 d2 : Word) : State :=
  match e with
  | .keeper k =>
    (s.faultKeeper k code pc).raise { code := code, cls := 1, unit := k, d0 := d0, d1 := d1, d2 := d2 }
  | .fetch c | .execute c =>
    let s :=
      if s.bit F.CORE_FAULT_VALID c then s
      else ((s.setFld F.CORE_FAULT_CODE code c).setFld F.CORE_FAULT_PC pc c).setBit F.CORE_FAULT_VALID 0 c
    (s.faultCore c 4).raise { code := code, cls := 0, unit := c, d0 := d0, d1 := d1, d2 := d2 }

/-- An instruction fault at the engine's present instruction; D0 is the instruction number. -/
def State.instrFault (s : State) (e : EngId) (code : Nat) : State :=
  s.instrFaultAt e (s.eng e).pc code (BitVec.ofNat 32 (s.eng e).pc) 0 0

/-- ADDR_RANGE at an address (R481: D0, D1 the address, D2 the instruction number). -/
def State.addrFault (s : State) (e : EngId) (a : Nat) : State :=
  s.instrFaultAt e (s.eng e).pc codeAddrRange (BitVec.ofNat 32 a) (BitVec.ofNat 32 (a / 2 ^ 32)) (BitVec.ofNat 32 (s.eng e).pc)

/-- SLOT_POISON of an instruction that received poison (R144, R481: D0 the instruction number, D2 all ones).
(DEDUCED, log entry 171.) -/
def State.poisonFault (s : State) (e : EngId) : State :=
  s.instrFaultAt e (s.eng e).pc codeSlotPoison (BitVec.ofNat 32 (s.eng e).pc) 0 0xFFFFFFFF

/-! ### Completing an instruction (R132, R146) -/

/-- Where an engine goes after instruction `p` with these active loops, innermost first: each loop that ends there counts
down, and goes round or becomes inactive (R146, R147). -/
def loopEnd (p : Nat) : List LoopRec → Sparse Word → Nat × List LoopRec × Sparse Word
  | [], n => (p + 1, [], n)
  | l :: r, n =>
    if l.last = p then
      let v := n.look l.counter 0 - 1
      if v ≠ 0 then (l.first, l :: r, n.set l.counter 0 v)
      else loopEnd p r (n.set l.counter 0 0)
    else (p + 1, l :: r, n)

/-- An engine completes or passes over instruction `p` (R132). -/
def Engine.complete (x : Engine) (p : Nat) : Engine :=
  let (pc, loops, n) := loopEnd p x.loops x.n
  { x with
    pc := pc, loops := loops, n := n, wait := .none, withdraw := false, expired := false, got := none, fence := none, loaded := none
    stall := none, since := none }

/-- An engine completes instruction `p`; past instruction 8191 it faults with ILLEGAL_INSTR, recording 8191 (R132). -/
def State.completeAt (s : State) (e : EngId) (p : Nat) : State :=
  let s := s.updEng e (fun x => x.complete p)
  if 8191 < (s.eng e).pc then s.instrFaultAt e 8191 codeIllegal 8191 0 0 else s

/-- An engine completes its present instruction. -/
def State.retire (s : State) (e : EngId) : State := s.completeAt e (s.eng e).pc

/-- An engine jumps: loops that do not hold the target become inactive (R147). -/
def State.jumpTo (s : State) (e : EngId) (t : Nat) : State :=
  s.updEng e (fun x => { x with
    pc := t, wait := .none
    loops := x.loops.dropWhile (fun l => !(decide (l.first ≤ t) && decide (t ≤ l.last))) })

/-- An engine waits: its instruction is started again when the condition clears (R103, R107). -/
def State.block (s : State) (e : EngId) (op : BitVec 8) (b : KBits) : State :=
  s.updEng e (fun x => { x with wait := .blocked op b })

/-! ### Taking an instruction -/

/-- Whether fault injection holds a core's fetch engine (R489, kind 3). -/
def State.held (s : State) (c : Nat) : Bool :=
  match s.tst.injection with
  | some j => j.kind == 3 && j.core == c
  | none => false

/-- Whether an engine can take an instruction now: it runs, has not stopped, and waits for nothing. -/
def State.ready (s : State) (e : EngId) : Bool :=
  (s.eng e).wait == .none && !(s.eng e).stopped && match e with
    | .fetch c => (s.core c).state == 2 && !s.held c
    | .execute c => (s.core c).state == 2
    | .keeper k => (s.keeper k).state == 1

/-- Whether an engine takes an instruction of this ENGINE value rather than passing over it (R131, R132, R156). -/
def takes (e : EngId) (engine : BitVec 2) : Bool :=
  match e with
  | .fetch _ => engine != 2
  | .execute _ => engine == 0 || engine == 2
  | .keeper _ => true

/-- The ENGINE values an instruction allows on a compute core, and whether keepers execute it (R138, R156). -/
structure Allow where
  both : Bool := false
  fetch : Bool := false
  exec : Bool := false
  keeper : Bool := false
  deriving DecidableEq, Repr

/-- Whether an ENGINE value is one an instruction allows where it is taken (R131, R138, R156). -/
def Allow.ok (w : Allow) (e : EngId) (engine : BitVec 2) : Bool :=
  match e with
  | .keeper _ => w.keeper && (engine == 0 || engine == 3)
  | _ => (engine == 0 && w.both) || (engine == 1 && w.fetch) || (engine == 2 && w.exec)

/-- An engine takes an instruction (R130 to R132, R156): one it passes over completes; an ENGINE value, a zero field or a
field value that its format does not allow faults, whatever the guard; with a false guard it completes without effect. -/
def runInstr (w : Allow) (fieldsOk : KBits → Bool) (body : EngId → KBits → State → State) (e : EngId) (b : KBits)
    (s : State) : State :=
  if !s.ready e then s
  else if !takes e b.engine then s.retire e
  else if !(w.ok e b.engine && fieldsOk b) then s.instrFault e codeIllegal
  else if !(s.eng e).guard b then s.retire e
  else body e b s

/-- Instructions of both engines and of keepers (R138). -/
def anyEngine : Allow := { both := true, fetch := true, exec := true, keeper := true }
/-- Instructions of both engines, not of keepers. -/
def coreEngines : Allow := { both := true, fetch := true, exec := true }
/-- Instructions of the fetch engine and of keepers. -/
def fetchKeeper : Allow := { fetch := true, keeper := true }
/-- Instructions of the fetch engine alone. -/
def fetchOnly : Allow := { fetch := true }
/-- Instructions of the execute engine alone. -/
def execOnly : Allow := { exec := true }

end Sys2Proof.Machine
end

