-- ==== Sys2Proof/Machine/Streams.lean ====
section
/-! DEFINITION. Queues and tiles (R102, R104, R153), streams and their accesses (R198 to R214, R519 to R521), and the
instructions ARM, REARM and SWAIT with the events of streams. -/

namespace Sys2Proof.Machine

/-! ### Queues (R102, R104, R153) -/

/-- Queue `q` of a core. -/
def Core.queue (k : Core) (q : Nat) : Queue := k.queues.look q {}

/-- Replaces queue `q` of a core. -/
def Core.setQueue (k : Core) (q : Nat) (v : Queue) : Core := { k with queues := k.queues.put q v }

/-- Words a queue holds. -/
def Queue.size (q : Queue) : Nat := (q.entries.map (fun e => e.words.length)).sum

/-- Words Q0 holds. -/
def Core.tileWords (k : Core) : Nat := (k.tiles.map (fun t => t.words.length)).sum

/-- Whether a queue has room for an entry of `n` words (R102, R201): 4,096 words and 64 entries in all. -/
def Core.room (k : Core) (q n : Nat) : Bool :=
  if q = 0 then decide (k.tileWords + n ≤ 4096 ∧ k.tiles.length < 64)
  else decide ((k.queue q).size + n ≤ 4096 ∧ (k.queue q).entries.length < 64)

/-- Whether an inbound arming runs on a queue, which then is inbound (R102). -/
def Core.armedIn (k : Core) (q : Nat) : Bool :=
  k.streams.any (fun v => match v.2.cur with
    | some a => a.q == q && a.mode != 1
    | none => false)

/-- Whether a queue is empty. -/
def Core.queueEmpty (k : Core) (q : Nat) : Bool := if q = 0 then k.tiles.isEmpty else (k.queue q).entries.isEmpty

/-- Appends an entry to a queue, which takes the entry's direction. -/
def Core.push (k : Core) (q : Nat) (outbound : Bool) (e : QEntry) : Core :=
  k.setQueue q { entries := (k.queue q).entries ++ [e], outbound := outbound }

/-- Whether a core has a successor in a chain (R120, R153). -/
def State.hasNext (s : State) (c : Nat) : Bool := s.bit F.CHAIN_CFG_MEMBER c && s.bit F.CHAIN_CFG_NEXT_VALID c

/-- Takes out of Q0 the tiles that are both sent and released; at the tail and outside chains every tile counts as sent
(R153). -/
def State.purgeTiles (s : State) (c : Nat) : State :=
  s.updCore c (fun k => { k with tiles := k.tiles.filter (fun t => !(t.released && (t.sent || !s.hasNext c))) })

/-- Delivers a tile into Q0. -/
def State.pushTile (s : State) (c : Nat) (words : List Word) (poison : Bool) (tag : Word) : State :=
  let (id, s) := s.draw
  s.updCore c (fun k => { k with tiles := k.tiles ++ [{ id := id, words := words, poison := poison, tag := tag }] })

/-- Releases the tile with an identity, if it is still unreleased (R153, R179). -/
def State.releaseTile (s : State) (c id : Nat) : State :=
  (s.updCore c (fun k => { k with tiles := k.tiles.map (fun t => if t.id = id then { t with released := true } else t) })).purgeTiles c

/-! ### Entries of an arming (R199, R209, R211) -/

/-- The descriptor of an arming's tensor. -/
def Arming.t (a : Arming) : Desc := Desc.of a.dt
/-- The index descriptor of a gather. -/
def Arming.x (a : Arming) : Desc := Desc.of a.dx

/-- Rows of one plane that an arming takes: with its pad rows when it reads (R199). -/
def Arming.rows (a : Arming) : Nat := if a.mode = 0 then a.t.pt + a.t.e1 + a.t.pb else a.t.e1

/-- The number of entries of an arming. -/
def Arming.total (a : Arming) : Nat :=
  if a.mode = 2 then a.x.e0 * a.x.e1 * a.t.e2 else a.t.e3 * a.rows * a.t.e2

/-- Whether an arming has a zero extent (R206). -/
def Arming.zero (a : Arming) : Bool :=
  a.t.e0 == 0 || a.t.e1 == 0 || a.t.e2 == 0 || a.t.e3 == 0 ||
    (a.mode == 2 && (a.x.e0 == 0 || a.x.e1 == 0 || a.x.e2 == 0 || a.x.e3 == 0))

/-- Elements per entry (R199, R209). -/
def Arming.width (a : Arming) : Nat := if a.mode = 2 then a.t.e3 else a.t.win

/-- Words per tile of an arming on Q0 (R519). -/
def Arming.tileSize (a : Arming) : Nat := if a.t.ty = 3 then 2048 else 1024

/-- Whether an arming's tensor lies in HyperRAM and is read through the reference reader (R210). -/
def Arming.hyper (a : Arming) : Bool := decide (a.mode = 2 ∧ hyperBase ≤ a.t.base ∧ a.t.base < hyperBase + 0x80000000)

/-- The coordinates of entry `n`: fourth index, row and plane (R199); for a gather the number of the index word in place of
the row (R209). -/
def Arming.coord (a : Arming) (n : Nat) : Nat × Int × Nat :=
  if a.mode = 2 then (0, ((n / a.t.e2 : Nat) : Int), n % a.t.e2)
  else
    let h := a.rows
    (n / (a.t.e2 * h), ((n / a.t.e2 % h : Nat) : Int) - (if a.mode = 0 then (a.t.pt : Int) else 0), n % a.t.e2)

/-- Signed column and row of an index word (R209). -/
def indexXY (w : Word) : Int × Int := (signedOf 16 w.toNat, signedOf 16 (w.toNat / 65536))

/-- The first column and the row of entry `n`'s window in the tensor: from the descriptor's pads, or from the index word. -/
def Stream.window (st : Stream) (a : Arming) (n : Nat) : Int × Int :=
  let (_, y, _) := a.coord n
  if a.mode = 2 then indexXY (st.idx.look (n / a.t.e2) 0) else (-(a.t.pl : Int), y)

/-- The source column or row of a coordinate: itself in bounds; clamped under EDGE; none otherwise (R165, R199, R209). -/
def sourceCoord (pmode extent : Nat) (v : Int) : Option Nat :=
  if 0 ≤ v ∧ v < extent then some v.toNat
  else if pmode = 2 then some (clampInt 0 ((extent : Int) - 1) v).toNat
  else none

/-- The row, and the first and last column, that entry `n` needs from memory; none when it needs nothing. -/
def Stream.need (st : Stream) (a : Arming) (n : Nat) : Option (Nat × Nat × Nat) :=
  let (x0, y) := st.window a n
  match sourceCoord a.t.pmode a.t.e1 y with
  | none => none
  | some row =>
    let lo := clampInt 0 ((a.t.e0 : Int) - 1) x0
    let hi := clampInt 0 ((a.t.e0 : Int) - 1) (x0 + a.width - 1)
    if a.t.pmode ≠ 2 ∧ (x0 + a.width ≤ 0 ∨ (a.t.e0 : Int) ≤ x0) then none
    else some (row, lo.toNat, hi.toNat)

/-- The byte address of element (x, y, c, k) without reduction (R163). -/
def Desc.byteAddr (d : Desc) (x y c k : Nat) : Nat :=
  d.base + x * typeBits d.ty / 8 + y * d.str1 + c * d.str2 + k * d.str3

/-- The last byte of element (x, y, c, k). -/
def Desc.lastByte (d : Desc) (x y c k : Nat) : Nat := d.byteAddr x y c k + (if d.ty = 0 then 0 else typeBits d.ty / 8 - 1)

/-! ### Accesses (R200) -/

/-- The smallest range of words within a block, aligned to its size rounded up to a power of two, that contains words `w0` to
`w1`: its first word and length, trying lengths from `n` on (R68, R200). -/
def coverFrom (w0 w1 n : Nat) : Nat → Nat × Nat
  | 0 => (0, 64)
  | fuel + 1 =>
    let p := pow2ceil n
    let a := w0 / p * p
    if w1 < a + n then (a, n) else coverFrom w0 w1 (n + 1) fuel

/-- The accesses that cover bytes `lo` to `hi`: one for each 256-byte block, as address and length in words (R200). -/
def accesses (lo hi : Nat) : List (Nat × Nat) :=
  (List.range (hi / 256 - lo / 256 + 1)).map (fun i =>
    let blk := (lo / 256 + i) * 256
    let a := Nat.max lo blk
    let b := Nat.min hi (blk + 255)
    let (w, n) := coverFrom ((a - blk) / 4) ((b - blk) / 4) ((b - blk) / 4 - (a - blk) / 4 + 1) 64
    (blk + 4 * w, n))

/-- The byte range in memory of entry `n` of an uncompressed arming. -/
def Stream.bytes (st : Stream) (a : Arming) (n : Nat) : Option (Nat × Nat) :=
  let (k, _, c) := a.coord n
  match st.need a n with
  | none => none
  | some (row, lo, hi) => some (a.t.byteAddr lo row c k, a.t.lastByte hi row c k)

/-- Start of the run of entry `n` of a zero-compressed arming, and its plane (R211); none for a pad row that reads nothing. -/
def Arming.run (a : Arming) (n : Nat) : Option Nat :=
  let (k, y, _) := a.coord n
  match sourceCoord a.t.pmode a.t.e1 y with
  | none => none
  | some row => some (a.t.base + row * a.t.str1 + k * a.t.str3)

/-- Groups of 64 elements in a plane row (R211). -/
def Arming.groups (a : Arming) : Nat := (a.t.e0 + 63) / 64

/-- The number of ones in the low `n` bits. -/
def popCount (v n : Nat) : Nat := ((List.range n).filter (fun i => v.testBit i)).length

/-- Length in words of the group that starts at word `p` of a run (R211); none while its mask has not been read. -/
def Stream.groupLen (st : Stream) (a : Arming) (p : Nat) : Option Nat :=
  if st.words.has p && st.words.has (p + 1) then
    let m := (st.words.look p 0).toNat + 2 ^ 32 * (st.words.look (p + 1) 0).toNat
    some (2 + entryWords a.t.ty (popCount m 64))
  else none

/-- The word after `g` groups from word `p` on; none while some of their masks have not been read. -/
def Stream.skip (st : Stream) (a : Arming) (p : Nat) : Nat → Option Nat
  | 0 => some p
  | g + 1 => match st.groupLen a p with
    | some l => Stream.skip st a (p + l) g
    | none => none

/-- The words [first, last) of plane `c` of the run, once they have all been read (R213). -/
def Stream.planeWords (st : Stream) (a : Arming) (c : Nat) : Option (Nat × Nat) :=
  match st.skip a 0 (c * a.groups) with
  | none => none
  | some p => match st.skip a p a.groups with
    | none => none
    | some q => if (List.range (q - p)).all (fun i => st.words.has (p + i)) then some (p, q) else none

/-- The raw elements of a plane row that starts at word `p`, with ZP in every zero position (R211, R213). -/
def Stream.expand (st : Stream) (a : Arming) (p : Nat) : Nat → List Nat
  | 0 => []
  | g + 1 =>
    let m := (st.words.look p 0).toNat + 2 ^ 32 * (st.words.look (p + 1) 0).toNat
    let len := 2 + entryWords a.t.ty (popCount m 64)
    let data := (List.range (len - 2)).map (fun i => st.words.look (p + 2 + i) 0)
    (List.range 64).map (fun i => if m.testBit i then packedElem a.t.ty data (popCount m i) else elemRaw a.t.ty a.t.zp)
      ++ Stream.expand st a (p + len) g

/-- One group of a plane row, compressed: two words of mask and the elements that differ from ZP (R211). -/
def compressGroup (a : Arming) (l : List Nat) : List Word :=
  let zp := elemRaw a.t.ty a.t.zp
  let mask := (List.range l.length).foldl (fun acc i => if l.getD i zp ≠ zp then acc + 2 ^ i else acc) 0
  BitVec.ofNat 32 mask :: BitVec.ofNat 32 (mask / 2 ^ 32) :: packWords a.t.ty (l.filter (fun v => v ≠ zp))

/-- A plane row, compressed (R211, R213). -/
def compressRow (a : Arming) (l : List Nat) : List Word :=
  (List.range a.groups).flatMap (fun g => compressGroup a ((l.drop (64 * g)).take 64))

/-- The word addresses that hold elements `i` to `i + n - 1` of an uncompressed entry without pads: the first and the last. -/
def Arming.elemWords (a : Arming) (n i len : Nat) : Nat × Nat :=
  let (k, y, c) := a.coord n
  (a.t.byteAddr i y.toNat c k / 4, a.t.lastByte (Nat.min (i + len) a.t.e0 - 1) y.toNat c k / 4)

/-- An access a stream waits to perform. -/
inductive Access where
  /-- An index read of a gather: first index number, byte range. -/
  | index (first lo hi : Nat)
  /-- A read into the stream's words, keyed by word address, or by word of the run when `run` gives its start. -/
  | read (addr n : Nat) (run : Option Nat)
  /-- A read of a whole entry through the reference reader (R210). -/
  | reference
  /-- A write of an entry's block: address, length in words, and the bytes that hold elements. -/
  | write (addr n lo hi : Nat)
  /-- A write of `n` compressed words. -/
  | writeRun (addr n : Nat)
  deriving DecidableEq, Repr

/-- The address an access goes to. -/
def Access.addr : Access → Option Nat
  | .index _ lo _ => some lo
  | .read a _ _ => some a
  | .reference => none
  | .write a _ _ _ => some a
  | .writeRun a _ => some a

/-- The index access of entry `n`, where its index word has not been read: the words of its row in its block (R200, R209). -/
def Stream.indexAccess (st : Stream) (a : Arming) (n : Nat) : Option Access :=
  let i := n / a.t.e2
  if a.mode ≠ 2 ∨ st.idx.has i then none
  else
    let lo := a.x.byteAddr (i % a.x.e0) (i / a.x.e0) 0 0
    let hi := Nat.min (a.x.lastByte (a.x.e0 - 1) (i / a.x.e0) 0 0) (lo / 256 * 256 + 255)
    some (.index i lo hi)

/-- The next access of a stream for entry `n` of its arming; none when the entry can be delivered, or compressed, without
one. -/
def Stream.nextAccess (st : Stream) (a : Arming) : Option Access :=
  let n := st.entry
  if a.mode = 1 then
    if a.t.zc then
      if st.outBuf.length ≥ 64 then some (.writeRun ((a.run (n - 1)).getD 0 + 256 * st.acc) 64)
      else if st.outBuf ≠ [] ∧ n % a.t.e2 = 0 then some (.writeRun ((a.run (n - 1)).getD 0 + 256 * st.acc) st.outBuf.length)
      else none
    else if st.taken.isNone then none
    else match st.bytes a n with
      | some (lo, hi) => ((accesses lo hi)[st.acc]?).map (fun (b, l) => .write b l lo hi)
      | none => none
  else match st.indexAccess a n with
    | some x => some x
    | none =>
      if a.t.zc then
        match a.run n with
        | none => none
        | some r => if (st.planeWords a (n % a.t.e2)).isSome then none else some (.read (r + 256 * st.acc) 64 (some r))
      else if a.hyper then
        match st.need a n with
        | some _ => if st.acc = 0 then some .reference else none
        | none => none
      else match st.bytes a n with
        | some (lo, hi) => ((accesses lo hi)[st.acc]?).map (fun (b, l) => .read b l none)
        | none => none

/-! ### Entries into and out of queues -/

/-- The raw bits of an element of memory that the stream has read. -/
def Stream.rawElem (st : Stream) (a : Arming) (x row c k : Nat) : Nat :=
  let b := a.t.byteAddr x row c k
  let word (w : Nat) : Nat := (st.words.look w 0).toNat
  let v := (word (b / 4) + 2 ^ 32 * word (b / 4 + 1)) / 2 ^ (8 * (b % 4))
  if a.t.ty = 0 then v / 2 ^ (4 * (x % 2)) % 16 else v % 2 ^ typeBits a.t.ty

/-- The raw elements of entry `n`, from the words read for it and the pad values (R165, R199, R209, R213). -/
def Stream.elements (st : Stream) (a : Arming) (n : Nat) : List Nat :=
  let (k, _, c) := a.coord n
  let (x0, y) := st.window a n
  let row := sourceCoord a.t.pmode a.t.e1 y
  let plane : List Nat :=
    if a.t.zc then match st.planeWords a c with
      | some (p, _) => st.expand a p a.groups
      | none => []
    else []
  (List.range a.width).map (fun (i : Nat) =>
    match row, sourceCoord a.t.pmode a.t.e0 (x0 + (i : Int)) with
    | some r, some x => if a.t.zc then plane.getD x 0 else st.rawElem a x r c k
    | _, _ => padRaw a.t)

/-- Whether a word read for entry `n` was poisoned (R201, R209). -/
def Stream.entryPoison (st : Stream) (a : Arming) (n : Nat) : Bool :=
  let words := if a.t.zc then
      match st.planeWords a (n % a.t.e2) with
      | some (p, q) => (List.range (q - p)).any (fun i => st.wpoison.look (p + i) false)
      | none => false
    else st.wpoison.any (fun w => w.2)
  words || (a.mode == 2 && st.idxPoison.look (n / a.t.e2) false)

/-- The words of entry `n` of an arming on Q0 as they join their tile (R519): each is poisoned if a word read for its elements was,
or a word that only the entry's access covers. -/
def Stream.tileWords (st : Stream) (a : Arming) (n : Nat) : List StreamWord :=
  let ws := packWords a.t.ty (st.elements a n)
  let per := 32 / typeBits a.t.ty
  let all := a.elemWords n 0 a.t.e0
  let beside := st.wpoison.any (fun w => w.2 && decide (w.1 < all.1 ∨ all.2 < w.1))
  (List.range ws.length).map (fun i =>
    let (lo, hi) := a.elemWords n (per * i) per
    { word := ws.getD i 0, poison := beside || st.wpoison.any (fun w => w.2 && decide (lo ≤ w.1 ∧ w.1 ≤ hi)), last := i + 1 == ws.length })

/-- Stream `k` of a core. -/
def Core.stream (x : Core) (k : Nat) : Stream := x.streams.look k {}

/-- Changes stream `k` of core `c`. -/
def State.updStream (s : State) (c k : Nat) (f : Stream → Stream) : State :=
  s.updCore c (fun x => { x with streams := x.streams.put k (f (x.stream k)) })

/-- Goes on to the next entry: what was read for the last one is forgotten, but for a run that goes on (R213). -/
def Stream.advance (st : Stream) (a : Arming) : Stream :=
  let n := st.entry + 1
  if a.t.zc ∧ n % a.t.e2 ≠ 0 then { st with entry := n }
  else { st with entry := n, acc := 0, words := [], wpoison := [], taken := none }

/-- Whether an inbound arming's next entry, or its tile on Q0, finds room (R201, R519) in a queue that is inbound or empty (R102). -/
def Core.takesEntry (x : Core) (a : Arming) : Bool :=
  x.room a.q (if a.q = 0 then a.tileSize else entryWords a.t.ty a.width) &&
    (a.q == 0 || x.queueEmpty a.q || !(x.queue a.q).outbound)

/-- The raw bits written for an element: its value in the form of its type, with an I12's sign copied into its container (R164). -/
def writtenRaw (ty raw : Nat) : Nat := elemRaw ty (elemValue ty raw)

/-- The words of a compressed entry, the last one marked. -/
def markLast (l : List Word) (p : Bool) : List StreamWord :=
  (List.range l.length).map (fun i => { word := l.getD i 0, poison := p, last := i + 1 == l.length })

/-- Delivers or absorbs the entries that need no further access, while their queue has room or holds an entry: an inbound
entry enters its queue whole (R201) or joins its tile (R519), an outbound entry is taken and checked (R202) and, if the
tensor is zero-compressed, compressed (R213).  The fault of R202 comes while the core is RUNNING (R106); before, the entry stays
in its queue. (DEDUCED, log entry 221.) -/
def State.settleStream (s : State) (c k : Nat) : Nat → State
  | 0 => s
  | fuel + 1 =>
    let x := s.core c
    let st := x.stream k
    match st.cur with
    | none => s
    | some a =>
      if a.total ≤ st.entry ∨ (st.nextAccess a).isSome then s
      else if a.mode = 1 then
        match st.taken, a.t.zc with
        | some _, _ => State.settleStream (s.updStream c k (fun st => st.advance a)) c k fuel
        | none, zc =>
          let q := x.queue a.q
          match q.entries, q.outbound with
          | e :: r, true =>
            let s' := s.setCore c (x.setQueue a.q { q with entries := r })
            if e.words.length ≠ entryWords a.t.ty a.t.win then
              if x.state = 2 then
                s'.instrFaultAt (.fetch (Fin.ofNat 32 c)) a.pc codeDescInvalid (BitVec.ofNat 32 a.pc) 0 0
              else s
            else if zc then
              let l := (List.range a.t.e0).map (fun i => packedElem a.t.ty e.words (a.t.pl + i))
              State.settleStream (s'.updStream c k (fun st =>
                { st with
                  outBuf := st.outBuf ++ markLast (compressRow a l) (e.poison || a.tainted)
                  entry := st.entry + 1 })) c k fuel
            else State.settleStream (s'.updStream c k (fun st => { st with taken := some e })) c k fuel
          | _, _ => s
      else if !x.takesEntry a then s
      else
        let s :=
          if a.q = 0 then
            let tile := st.tile ++ st.tileWords a st.entry
            if a.tileSize ≤ tile.length then
              let (g, s) := s.draw
              let whole := tile.take a.tileSize
              (s.updStream c k (fun st => { st with tile := tile.drop a.tileSize })).pushTile c
                (whole.map (fun w => w.word)) (whole.any (fun w => w.poison)) (Config.freeWord g 0)
            else s.updStream c k (fun st => { st with tile := tile })
          else
            let v : QEntry := { words := packWords a.t.ty (st.elements a st.entry), poison := st.entryPoison a st.entry || a.tainted }
            s.updCore c (fun x => x.push a.q false v)
        State.settleStream (s.updStream c k (fun st => st.advance a)) c k fuel

/-- Delivers what can be delivered on stream `k`; a queue's 64 entries bound what one settling can do. -/
def State.settle (s : State) (c k : Nat) : State := s.settleStream c k 200

/-- Delivers, on every stream of a core, what needs no access. -/
def State.settleAll (s : State) (c : Nat) : State := (List.range 16).foldl (fun s k => s.settle c k) s

/-- The entries of a stream's arming that are not yet delivered or written (R226). -/
def Stream.left (st : Stream) (a : Arming) : Nat :=
  a.total - st.entry + ((if a.mode = 1 then st.outBuf else st.tile).filter (fun w => w.last)).length

/-! ### Performing an access -/

/-- Reads `n` words for a stream; a band that is not ACTIVE delivers zeros with poison (R520). -/
def State.streamRead (s : State) (c a n : Nat) : List (Word × Bool) × State :=
  match storeOf a with
  | none => ((List.replicate n (0, true)), s)
  | some st =>
    if s.bandState st (bandOf st a) ≠ 0 then (List.replicate n (0, true), s)
    else (List.range n).foldl (fun (acc : List (Word × Bool) × State) i =>
      let ((w, p), s) := acc.2.getWord (corePort c st) (a + 4 * i)
      (acc.1 ++ [(w, p)], s)) ([], s)

/-- Writes words with byte enables for a stream; a band that is not ACTIVE performs nothing (R520). -/
def State.streamWrite (s : State) (c a : Nat) (l : List (Word × BitVec 4 × Bool)) : State :=
  match storeOf a with
  | none => s
  | some st =>
    if s.bandState st (bandOf st a) ≠ 0 then s
    else ((List.range l.length).foldl (fun (s : State) i =>
      let (w, en, p) := l.getD i (0, 0, false)
      s.putEnabled (corePort c st) (a + 4 * i) w en p) s)

/-- Lists values at consecutive keys. -/
def putRange {α : Type} (m : Sparse α) (k : Nat) (l : List α) : Sparse α :=
  (List.range l.length).foldl (fun m i => match l[i]? with
    | some v => m.put (k + i) v
    | none => m) m

/-- The bytes of an entry's elements PL to PL + E0 − 1 as they lie in memory (R202). -/
def elementBytes (a : Arming) (e : QEntry) : List Byte :=
  bytesOfWords (packWords a.t.ty ((List.range a.t.e0).map (fun i => writtenRaw a.t.ty (packedElem a.t.ty e.words (a.t.pl + i)))))

/-- The words and enables of one block's write of an entry (R202). -/
def blockWords (a : Arming) (e : QEntry) (addr n lo hi : Nat) : List (Word × BitVec 4 × Bool) :=
  let bytes := elementBytes a e
  (List.range n).map (fun i =>
    let at_ (j : Nat) : Nat := addr + 4 * i + j
    let b (j : Nat) : Byte := if lo ≤ at_ j then bytes.getD (at_ j - lo) 0 else 0
    let on (j : Nat) : Nat := if lo ≤ at_ j ∧ at_ j ≤ hi then 2 ^ j else 0
    (b 3 ++ b 2 ++ b 1 ++ b 0, BitVec.ofNat 4 (on 0 + on 1 + on 2 + on 3), e.poison || a.tainted))

/-- The reference buffer at an address: its stream and number (R310, R317). -/
def State.refAt (s : State) (addr : Nat) : Option (Nat × Nat) :=
  ([(0, 0), (0, 1), (0, 2), (0, 3), (1, 0), (1, 1), (1, 2), (1, 3)] : List (Nat × Nat)).find? (fun (x, i) =>
    s.bit F.MOT_CTRL_EN x &&
      addr == s.fld F.MOT_REF_LO_ADDR x * 4096 + s.fld F.MOT_REF_HI_ADDR x * 2 ^ 32 + i * s.fld F.MOT_REF_STRIDE_PAGES x * 4096)

/-- Bytes per Ubsal-F block (R310). -/
def refBlock (fmt : Nat) : Nat := if fmt = 0 then 160 else 320

/-- The place of the sample of component `j` at (x, y) of a block in the list of its samples: luma, then the chroma planes, which
REF_FMT 0 halves both ways (R310). -/
def samplePlace (fmt j x y : Nat) : Nat :=
  if fmt = 0 ∧ j ≠ 0 then 256 + 64 * (j - 1) + 32 * (y / 2) + x / 2 else 256 * j + 64 * y + x

/-- A sample as Ubsal-F decodes it, within 32 of the sample written where one is known (R311). (DEDUCED, log entry 24.) -/
def nearSample (written : Option Nat) (decoded : Nat) : Nat :=
  match written with
  | some w => min 1023 (max (w - 32) (min (w + 32) decoded))
  | none => decoded

/-- The decoded 10-bit sample of component `j` at (x, y) of reference buffer `i` of stream `st`, the chroma of REF_FMT 0 by
replication (R310, R311, R317). (DEDUCED, log entry 24; DESIGN CHOICE, log entry 61.) -/
def State.refSample (s : State) (st i j x y : Nat) : Nat :=
  let b := (s.mot.look st {}).bufs.look i {}
  let fmt := s.fld F.MOT_CTRL_REF_FMT st
  let base := s.fld F.MOT_REF_LO_ADDR st * 4096 + s.fld F.MOT_REF_HI_ADDR st * 2 ^ 32 + i * s.fld F.MOT_REF_STRIDE_PAGES st * 4096
  let at_ := base + ((y / 4) * ((b.width + 63) / 64) + x / 64) * refBlock fmt
  let bytes := (List.range (refBlock fmt)).map (fun n => s.byteAt (at_ + n))
  let n := samplePlace fmt j (x % 64) (y % 4)
  nearSample ((((s.mot.look st {}).samples.look at_ [])[n]?)) (Config.ubsalFDecode fmt bytes n).toNat

/-- A byte of plane `c` of the P4 layout from three 10-bit components (R303). -/
def p4Byte (v : Nat → Nat) (c : Nat) : Nat :=
  if c < 3 then v c / 4 % 256 else (v 0 % 4) * 64 + (v 1 % 4) * 16 + (v 2 % 4) * 4

/-- Reads the elements of a gather's entry through the reference reader, as words keyed by their place (R210, R317); a buffer
that is being written gives free values. -/
def State.refRead (s : State) (c k : Nat) (a : Arming) : State :=
  let st := (s.core c).stream k
  match s.refAt a.t.base, st.need a st.entry with
  | some (x, i), some (row, lo, hi) =>
    let plane := st.entry % a.t.e2
    let busy := (s.mot.look x {}).writing == some i
    let (g, s) := s.draw
    let addr (col : Nat) : Nat := a.t.byteAddr col row plane 0
    let val (col : Nat) : Byte := if busy then Config.freeByte g col else BitVec.ofNat 8 (p4Byte (fun j => s.refSample x i j col row) plane)
    s.updStream c k (fun st => (List.range (hi - lo + 1)).foldl (fun st n =>
      let b := addr (lo + n)
      let old := st.words.look (b / 4) 0
      let m : Word := (0xFF : Word) <<< (8 * (b % 4))
      { st with words := st.words.put (b / 4) ((old &&& ~~~m) ||| ((val (lo + n)).setWidth 32 <<< (8 * (b % 4)))) }) { st with acc := 1 })
  | _, _ => s.updStream c k (fun st => { st with acc := 1 })

/-- Performs the next access of stream `k`, and counts it where it is a store's (R226). -/
def State.perform (s : State) (c k : Nat) (a : Arming) (x : Access) : State :=
  let s := if x.addr.isSome then s.addWrap F.STR_ACC_COUNT 1 c k else s
  match x with
  | .index first lo hi =>
    let (w0, n) := coverFrom ((lo % 256) / 4) ((hi % 256) / 4) ((hi % 256) / 4 - (lo % 256) / 4 + 1) 64
    let (l, s) := s.streamRead c (lo / 256 * 256 + 4 * w0) n
    let off := (lo % 256) / 4 - w0
    let take := (l.drop off).take ((hi - lo) / 4 + 1)
    s.updStream c k (fun st => { st with
      idx := putRange st.idx first (take.map (fun v => v.1))
      idxPoison := putRange st.idxPoison first (take.map (fun v => v.2)) })
  | .read addr n run =>
    let (l, s) := s.streamRead c addr n
    let key := match run with
      | some r => (addr - r) / 4
      | none => addr / 4
    s.updStream c k (fun st => { st with
      acc := st.acc + 1
      words := putRange st.words key (l.map (fun v => v.1))
      wpoison := putRange st.wpoison key (l.map (fun v => v.2)) })
  | .reference => s.refRead c k a
  | .write addr n lo hi =>
    match ((s.core c).stream k).taken with
    | some e => (s.streamWrite c addr (blockWords a e addr n lo hi)).updStream c k (fun st => { st with acc := st.acc + 1 })
    | none => s
  | .writeRun addr n =>
    let st := (s.core c).stream k
    let s := s.streamWrite c addr ((st.outBuf.take n).map (fun w => (w.word, 15, w.poison)))
    let last := st.outBuf.length ≤ n ∧ st.entry % a.t.e2 = 0
    s.updStream c k (fun st => { st with outBuf := st.outBuf.drop n, acc := if last then 0 else st.acc + 1 })

/-! ### Arming (R198, R205 to R209, R212, R519) -/

/-- Whether a byte range lies in one store of those an arming may address. -/
def rangeIn (ok : Nat → Bool) (lo hi : Nat) : Bool :=
  match storeOf lo with
  | some st => ok st && decide (hi < storeBase st + storeSize st)
  | none => false

/-- The worst-case length in bytes of a zero-compressed run (R212). -/
def Arming.worstRun (a : Arming) : Nat := 4 * a.t.e2 * a.groups * (2 + 2 * typeBits a.t.ty)

/-- The zero-compressed rules of R212. -/
def Arming.zcOk (a : Arming) : Bool :=
  decide (a.t.ty ≤ 2 ∧ a.t.base % 256 = 0 ∧ a.t.str1 % 256 = 0 ∧ a.t.str3 % 256 = 0 ∧ a.t.str2 = 0 ∧ a.mode ≤ 1 ∧
    a.worstRun ≤ a.t.str1 ∧ (a.t.e3 ≤ 1 ∨ a.t.e1 * a.t.str1 ≤ a.t.str3))

/-- The last byte an arming of mode 0 or 1 would address (R205). -/
def Arming.highest (a : Arming) : Nat :=
  if a.t.zc then a.t.base + (a.t.e1 - 1) * a.t.str1 + (a.t.e3 - 1) * a.t.str3 + a.worstRun - 1
  else a.t.lastByte (a.t.e0 - 1) (a.t.e1 - 1) (a.t.e2 - 1) (a.t.e3 - 1)

/-- The gather rules of R209 and R317. -/
def State.gatherOk (s : State) (a : Arming) : Bool :=
  decide (a.x.ty = 4 ∧ a.x.e2 = 1 ∧ a.x.e3 = 1 ∧ a.x.base % 4 = 0 ∧ a.x.str1 % 4 = 0) &&
  (a.zero || rangeIn (fun st => st == 1) a.x.base (a.x.lastByte (a.x.e0 - 1) (a.x.e1 - 1) 0 0)) &&
  decide (a.t.pl = 0 ∧ a.t.pr = 0 ∧ a.t.pt = 0 ∧ a.t.pb = 0) && !a.t.zc &&
  (if a.hyper then
    match s.refAt a.t.base with
    | some (x, i) =>
      let b := (s.mot.look x {}).bufs.look i {}
      a.t.ty == 2 && a.t.e0 == b.width && a.t.e1 == b.height && decide (1 ≤ a.t.e2 ∧ a.t.e2 ≤ 4)
    | none => false
  else a.zero || rangeIn (fun st => decide (st ≤ 2)) a.t.base (a.t.lastByte (a.t.e0 - 1) (a.t.e1 - 1) (a.t.e2 - 1) 0))

/-- The Q0 rules of R519. -/
def Arming.tilesOk (a : Arming) : Bool :=
  decide (a.mode = 0 ∧ (a.t.ty = 0 ∨ a.t.ty = 1 ∨ a.t.ty = 3) ∧ a.t.pl = 0 ∧ a.t.pr = 0 ∧ a.t.pt = 0 ∧ a.t.pb = 0) && !a.t.zc &&
    decide (a.total * entryWords a.t.ty a.t.e0 % a.tileSize = 0)

/-- Whether ARM or REARM accepts an arming (R205, R519). -/
def State.armOk (s : State) (a : Arming) : Bool :=
  a.t.fieldsOk && (a.mode != 2 || a.x.fieldsOk) && decide (entryWords a.t.ty a.width ≤ 64) &&
  (if a.mode = 2 then s.gatherOk a
   else a.zero || rangeIn (fun st => st != 3) a.t.base a.highest) &&
  !(a.mode == 1 && (a.t.pt != 0 || a.t.pb != 0 || (a.t.ty == 0 && a.t.e0 % 2 == 1))) &&
  (!a.t.zc || a.zcOk) && (a.q != 0 || a.tilesOk)

/-- Whether an arming exceeds the core's shape limits (R206). -/
def State.armOver (s : State) (c : Nat) (a : Arming) : Bool :=
  let t := (s.core c).limits
  a.t.over t || (a.mode == 2 && a.x.over t)

/-- Raises SHAPE_OVER for a core (R234, R235): once per stream, or per core without one, in a reporting frame; the stream is
FORCED to the next frame boundary. -/
def State.raiseShape (s : State) (c pc : Nat) : State :=
  let x := s.streamOf c
  let s := s.raiseOnce (if x < 2 then 1000 + x else c) { code := codeShapeOver, cls := 0, unit := c, d0 := BitVec.ofNat 32 pc, d1 := BitVec.ofNat 32 x }
  if x < 2 then { s with pics := s.pics.upd x {} (fun p => { p with shapeOver := true }) } else s

/-- Whether an arming's queue is free for stream `k`: no other stream holds it, and it is empty if its direction differs
(R207). -/
def State.queueFree (s : State) (c k : Nat) (a : Arming) : Bool :=
  let x := s.core c
  (List.range 16).all (fun j => j == k || !(x.stream j).holds.contains a.q) &&
    (x.queueEmpty a.q || (if a.q = 0 then a.mode != 1 else (x.queue a.q).outbound == (a.mode == 1)))

/-- A stream gives up the queues it holds but `keep`; the accounts of a queue that no stream holds return to zero (R207, R214). -/
def State.releaseQueues (s : State) (c k : Nat) (keep : List Nat) : State :=
  let s := s.updStream c k (fun st => { st with holds := keep })
  s.updCore c (fun x => { x with
    accounts := x.accounts.filter (fun p => (List.range 16).any (fun j => (x.stream j).holds.contains (p.1 % 8))) })

/-- A stream becomes idle and gives up its queues (R207). -/
def State.idleStream (s : State) (c k : Nat) : State := (s.releaseQueues c k []).updStream c k (fun _ => {})

/-- Starts an arming on stream `k`, sampling the taint bits (R207, R221); an arming with a zero extent completes at once and
does not take its queue (R206). -/
def State.startArming (s : State) (c k : Nat) (a : Arming) : State :=
  let x := s.core c
  let s := s.addWrap F.STR_ARMS_COUNT 1 c k
  if a.zero then s.idleStream c k
  else
    let tainted := if a.mode = 1 then x.taintOut != 0 else a.q != 0 && x.taintIn != 0
    let s := s.updStream c k (fun st =>
      { cur := some { a with tainted := tainted }, shadow := st.shadow
        holds := if st.holds.contains a.q then st.holds else st.holds ++ [a.q] })
    if a.q = 0 then s
    else s.updCore c (fun x => x.setQueue a.q { x.queue a.q with outbound := a.mode == 1 })

/-- A stream starts the arming that waits in its shadow, where it can (R208); with none, it is idle and gives up its queues,
whose accounts return to zero (R207, R214). -/
def State.nextArming (s : State) (c k : Nat) : State :=
  let st := (s.core c).stream k
  match st.cur, st.shadow with
  | some _, _ => s
  | none, some a =>
    if a.zero || s.queueFree c k a then (s.updStream c k (fun st => { st with shadow := none })).startArming c k a else s
  | none, none => s.idleStream c k

/-- Completes the current arming of a stream when every entry has entered its queue or every write has been made (R203), and
starts its shadow (R208).  The queue of the arming before it, whose shadow it was, is given up; its own is held until its shadow
has completed (R207). -/
def State.finishArming (s : State) (c k : Nat) : State :=
  let st := (s.core c).stream k
  match st.cur with
  | some a =>
    if a.total ≤ st.entry ∧ st.outBuf = [] ∧ st.taken = none then
      ((s.releaseQueues c k [a.q]).updStream c k (fun st => { cur := none, shadow := st.shadow, holds := st.holds })).nextArming c k
    else s
  | none => s.nextArming c k

/-- Whether the streams of a core run: it is RUNNING or HALTED and no audit suspends them (R107, R483). -/
def State.streamsRun (s : State) (c : Nat) : Bool :=
  ((s.core c).state == 2 || (s.core c).state == 3) && !s.auditRuns c

/-- The arming of an instruction in format SM (R137, R198). -/
def armingOf (x : Engine) (b : KBits) : Arming :=
  { q := b.f 45 43, mode := b.f 37 36, dt := x.rdesc (b.f 42 38)
    dx := if b.f 37 36 = 2 then x.rdesc (b.f 35 31) else 0, pc := x.pc }

/-- The fields of ARM and REARM (R131, R149). -/
def armFields (b : KBits) : Bool := b.z 30 0 && decide (b.f 37 36 ≤ 2) && (b.f 37 36 == 2 || b.z 35 31)

/-- The number of the core an engine belongs to; none for a keeper. -/
def coreOf : EngId → Option Nat
  | .fetch c => some c
  | .execute c => some c
  | .keeper _ => none

/-- ARM (R149, R205 to R207): blocks until its stream is idle with no shadow and its queue is free.
(DEDUCED, log entry 158.) -/
def armBody (e : EngId) (b : KBits) (s : State) : State :=
  match coreOf e with
  | none => s
  | some c =>
    let a := armingOf (s.eng e) b
    let k := b.f 49 46
    let st := (s.core c).stream k
    if !s.armOk a then s.instrFault e codeDescInvalid
    else if s.armOver c a then (s.raiseShape c (s.eng e).pc).retire e
    else if st.cur = none ∧ st.shadow = none ∧ (a.zero ∨ s.queueFree c k a) then (s.startArming c k a).retire e
    else s.block e 0x40 b

/-- REARM (R149, R208): starts an idle stream's arming or leaves it as its shadow. -/
def rearmBody (e : EngId) (b : KBits) (s : State) : State :=
  match coreOf e with
  | none => s
  | some c =>
    let a := armingOf (s.eng e) b
    let k := b.f 49 46
    let st := (s.core c).stream k
    if !s.armOk a then s.instrFault e codeDescInvalid
    else if s.armOver c a then (s.raiseShape c (s.eng e).pc).retire e
    else
      let s := if st.shadow.isSome then (s.addSat F.STR_REARM_COUNT 1 c k).setBit F.SLOT_EVT_REARM_OVER 0 c else s
      ((s.updStream c k (fun st => { st with shadow := some a })).nextArming c k).retire e

/-- SWAIT (R149, R203): blocks until its stream is idle and holds no shadow. -/
def swaitBody (e : EngId) (b : KBits) (s : State) : State :=
  match coreOf e with
  | none => s
  | some c =>
    let st := (s.core c).stream (b.f 49 46)
    if st.cur = none ∧ st.shadow = none then s.retire e else s.block e 0x42 b

/-- ARM (R149). -/
def runArm (e : EngId) (b : KBits) (s : State) : State := runInstr fetchOnly armFields armBody e b s
/-- SWAIT (R149). -/
def runSwait (e : EngId) (b : KBits) (s : State) : State := runInstr fetchOnly (fun b => b.z 45 0) swaitBody e b s

/-- ARM (R149, R205 to R207). -/
def execArm (e : EngId) (b : KBits) (s : State) : Host.Outcome State Fault Refusal := done (runArm e b s)

/-- REARM (R149, R208). -/
def execRearm (e : EngId) (b : KBits) (s : State) : Host.Outcome State Fault Refusal :=
  done (runInstr fetchOnly armFields rearmBody e b s)

/-- SWAIT (R149, R203). -/
def execSwait (e : EngId) (b : KBits) (s : State) : Host.Outcome State Fault Refusal := done (runSwait e b s)

/-! ### The events of streams -/

/-- The store and octet an access waits for; none for the reference reader. -/
def accessPlace (x : Access) : Option (Nat × Nat) :=
  match x.addr with
  | some a => match storeOf a with
    | some st => some (st, octetOf st a)
    | none => none
  | none => none

/-- The access stream `k` presents: its next one, where an inbound queue has room for its entry or tile (R201, R519). -/
def State.presented (s : State) (c k : Nat) : Option (Arming × Access) :=
  let x := s.core c
  let st := x.stream k
  match st.cur with
  | none => none
  | some a =>
    if a.total ≤ st.entry ∧ st.outBuf = [] then none
    else if a.mode ≠ 1 && !x.takesEntry a then none
    else (st.nextAccess a).map (fun y => (a, y))

/-- The arbitration of R214 among the streams whose next access waits for the same octet, and, with `fill`, an HRECV local fill as
a request of Q0 (without a stream): the one picked and the accounts after it. -/
def State.arbitrate (s : State) (c store octet : Nat) (fill : Bool) : Option (Option Nat) × Sparse Int :=
  let x := s.core c
  let waits : List (Nat × Option Nat) := (if fill then [(0, none)] else []) ++ (List.range 16).filterMap (fun k => match s.presented c k with
    | some (a, y) => if accessPlace y = some (store, octet) then some (a.q, some k) else none
    | none => none)
  let weight (q : Nat) : Int := (((s.rd .QPRI c).toNat / 2 ^ (3 * q) % 8 : Nat) : Int) + 1
  let key (q : Nat) : Nat := store * 8 + q
  let total := (waits.map (fun w => weight w.1)).sum
  let acc := waits.foldl (fun (m : Sparse Int) w => m.put (key w.1) (m.look (key w.1) 0 + weight w.1)) x.accounts
  let pick := waits.foldl (fun (best : Option (Nat × Option Nat)) w => match best with
    | none => some w
    | some b =>
      if acc.look (key b.1) 0 < acc.look (key w.1) 0 ∨ acc.look (key b.1) 0 = acc.look (key w.1) 0 ∧ w.1 < b.1 then some w
      else some b) none
  match pick with
  | none => (none, x.accounts)
  | some p => (some p.2, acc.put (key p.1) (acc.look (key p.1) 0 - total))

/-- Stream `j` performs the access it presents, and delivers what that completes. -/
def State.streamAccess (s : State) (c j : Nat) : State :=
  match s.presented c j with
  | none => s
  | some (a, x) => ((s.turnFor (.core c) (x.addr.getD 0)).perform c j a x).settle c j

/-- An access of an HRECV local fill (R119, R214): a request of Q0 that takes its turn among the core's streams at that octet;
`fuel` bounds how often another is picked first. (DEDUCED, log entry 222.) -/
def State.fillAccess (s : State) (c a : Nat) : Nat → List (Word × Bool) × State
  | 0 => (s.turnFor (.core c) a).streamRead c a 64
  | fuel + 1 =>
    match storeOf a with
    | none => s.streamRead c a 64
    | some store =>
      let s := s.settleAll c
      let (pick, acc) := s.arbitrate c store (octetOf store a) true
      let s := s.updCore c (fun y => { y with accounts := acc })
      match pick with
      | some (some j) => State.fillAccess (s.streamAccess c j) c a fuel
      | _ => (s.turnFor (.core c) a).streamRead c a 64

/-- The wheel step that connects a core's port to the octet stream `k` waits for (R71, R214): what needs no access is
delivered, and the stream the arbitration picks performs its next access and delivers what that completes. -/
def State.streamStep (s : State) (c k : Nat) : State :=
  if !(s.streamsRun c && s.bit F.STO_STATUS_INIT_DONE) then s
  else
    let s := s.settleAll c
    match s.presented c k with
    | none => s
    | some (a, x) =>
      match accessPlace x with
      | none => (s.perform c k a x).settle c k
      | some (store, octet) =>
        let (pick, acc) := s.arbitrate c store octet false
        match pick with
        | some (some j) => (s.updCore c (fun y => { y with accounts := acc })).streamAccess c j
        | _ => s

/-- STREAM_ARMING_COMPLETE: a stream's arming completes, and the stream goes idle or starts its shadow arming (R203, R208). -/
def execStreamArmingComplete (c : Fin 32) (k : Fin 16) (s : State) : Host.Outcome State Fault Refusal :=
  done (if s.streamsRun c then (s.settle c k).finishArming c k else s)

end Sys2Proof.Machine
end

