-- ==== Sys2Proof/Machine/MemSide.lean ====
section
/-! DEFINITION. Memory-side instructions (R152), slot instructions (R150, R151, R215 to R222), the watches they park
(R78 to R82, R218, R219), accesses at store ports (R71), and the cutting of slots (R223). -/

namespace Sys2Proof.Machine

/-- An engine as a requester at a store: its core, or a member of the keepers' class (R73, R74). -/
def requester : EngId → Requester
  | .fetch c => .core c
  | .execute c => .core c
  | .keeper k => .sys 0 k

/-- The port of an engine's accesses at the store of an address (R73, R74). -/
def portOf (e : EngId) (a : Nat) : Nat :=
  match storeOf a with
  | some st => (requester e).port st
  | none => 0

/-- Whether a memory-side operation of an engine is served at an address: word-aligned, in a store that performs such
operations, in an ACTIVE band (R66, R68, R77, R90, R143, R152). -/
def State.msOk (s : State) (a : Nat) : Bool := s.storeOk a 1 && storeOf a != some 3

/-- The address of an LD, ST, DLD or DST: (Aa + off) mod 2^40, off a signed byte offset (R137, R142). -/
def mmAddr (x : Engine) (b : KBits) : Nat := (x.ra (b.f 44 41) + (b.imm.signExtend 40)).toNat

/-! ### Memory-side instructions (R144, R152) -/

/-- The address of a memory-side instruction: Aa + 4 × off, modulo 2^40 (R152). -/
def msAddr (x : Engine) (b : KBits) : Nat :=
  (x.ra (b.f 41 38) + ((b.ops.extractLsb' 0 8).signExtend 40 <<< 2)).toNat

/-- Delivers a result to a memory-side instruction: Sd is the old value and Pd the flag; poison makes Pd 0 and faults with
SLOT_POISON (R144, R152). -/
def msFinish (e : EngId) (b : KBits) (r : OpResult) (s : State) : State :=
  let s := s.updEng e (fun x => (x.ws (b.f 49 45) r.old).wp (b.f 44 42) (r.flag && !r.poison))
  if r.poison then s.poisonFault e else s.retire e

/-- Performs a memory-side operation that does not block; `code` is the instruction's opcode. -/
def msRun (code : BitVec 8) (op : Engine → KBits → MsOp) (e : EngId) (b : KBits) (s : State) : State :=
  let x := s.eng e
  let a := msAddr x b
  if !s.msOk a then s.addrFault e a
  else if !s.opens a then s.block e code b
  else
    let (r, s) := (s.turnFor (requester e) a).msPerform (portOf e a) a (op x b)
    msFinish e b r s

/-- What follows from a blocking operation: its result, or the engine waits for its watch or for a place in the list. -/
def afterBlocking (finish : OpResult → State → State) (e : EngId) (op : BitVec 8) (b : KBits) (r : Blocking × State) : State :=
  match r.1 with
  | .result v => finish v r.2
  | .parked => r.2.updEng e (fun x => { x with wait := .parked op b, since := some (x.since.getD r.2.time) })
  | .full => r.2.updEng e (fun x => { x with wait := .listFull op b, since := some (x.since.getD r.2.time) })

/-- CMPCNT on its operands: the blocking form parks a watch (R78, R152). -/
def cmpcntBody (e : EngId) (b : KBits) (s : State) : State :=
  if b.f 24 24 = 0 then msRun 0x50 (fun x b => .compare (b.f 27 25) (x.rs (b.f 37 33)) (b.ops.extractLsb' 8 16)) e b s
  else
    let x := s.eng e
    let a := msAddr x b
    if !s.msOk a then s.addrFault e a
    else if !s.opens a then s.block e 0x50 b
    else afterBlocking (msFinish e b) e 0x50 b ((s.turnFor (requester e) a).msBlocking (portOf e a)
      { e := e, addr := a, cond := b.f 27 25, a := x.rs (b.f 37 33), delta := b.ops.extractLsb' 8 16 })

/-- CMPCNT (R152). -/
def runCmpcnt (e : EngId) (b : KBits) (s : State) : State :=
  runInstr fetchKeeper (fun b => b.z 32 28 && decide (b.f 27 25 ≤ 5)) cmpcntBody e b s

/-- CMPCNT (R152). -/
def execCmpcnt (e : EngId) (b : KBits) (s : State) : Host.Outcome State Fault Refusal := done (runCmpcnt e b s)

/-- FADD (R152). -/
def runFadd (e : EngId) (b : KBits) (s : State) : State :=
  runInstr fetchKeeper (fun b => b.z 32 8) (msRun 0x51 (fun x b => .add (x.rs (b.f 37 33)))) e b s

/-- CAS (R152). -/
def runCas (e : EngId) (b : KBits) (s : State) : State :=
  runInstr fetchKeeper (fun b => b.z 27 8) (msRun 0x52 (fun x b => .swap (x.rs (b.f 37 33)) (x.rs (b.f 32 28)))) e b s

/-- FADD (R152). -/
def execFadd (e : EngId) (b : KBits) (s : State) : Host.Outcome State Fault Refusal := done (runFadd e b s)

/-- CAS (R152). -/
def execCas (e : EngId) (b : KBits) (s : State) : Host.Outcome State Fault Refusal := done (runCas e b s)

/-! ### Slot rings (R215) -/

/-- A ring table entry: count base, slots, stride (R215). -/
structure Ring where
  base : Nat
  slots : Nat
  stride : Nat
  valid : Bool
  deriving DecidableEq, Repr

/-- Entry `r` of a core's ring table (R226). -/
def State.ring (s : State) (c r : Nat) : Ring :=
  { base := s.fld F.RING_LO_ADDR c r * 4 + s.fld F.RING_HI_ADDR c r * 2 ^ 32
    slots := s.fld F.RING_HI_SLOTS c r + 1
    stride := s.fld F.RING_STRIDE_BYTES c r
    valid := s.bit F.RING_HI_VALID c r }

/-- The fill word of a slot; the drain word lies 4 bytes above it (R215). -/
def Ring.fill (g : Ring) (slot : Nat) : Nat := (g.base + slot * g.stride) % 2 ^ 40

/-- Whether a count word lies in a store that slot rings may use (R215). -/
def countStore (a : Nat) : Bool := match storeOf a with
  | some st => st != 3
  | none => false

/-- Whether a slot instruction's entry and slot are valid (R215), and its word is served (R90, R520). -/
def State.slotOk (s : State) (g : Ring) (slot word : Nat) : Bool :=
  g.valid && decide (slot < g.slots ∧ g.stride % 4 = 0 ∧ 8 ≤ g.stride) && countStore (g.fill slot) && countStore (g.fill slot + 4) &&
    s.storeOk word 1

/-! ### Taint, timeout and poison (R219 to R222) -/

/-- Sets or clears a taint bit. -/
def taintSet (v : BitVec 16) (r : Nat) (on : Bool) : BitVec 16 :=
  if on then v ||| (1 <<< r) else v &&& ~~~((1 : BitVec 16) <<< r)

/-- Sets or clears TAINT_OUT or TAINT_IN of a ring. -/
def State.taint (s : State) (c : Nat) (out : Bool) (r : Nat) (on : Bool) : State :=
  s.updCore c (fun k => if out then { k with taintOut := taintSet k.taintOut r on } else { k with taintIn := taintSet k.taintIn r on })

/-- Latches SLOT_FAULT where it is not valid (R219, R220). -/
def State.latchSlot (s : State) (c code ring slot instr : Nat) : State :=
  if s.bit F.SLOT_FAULT_VALID c then s
  else ((((s.setFld F.SLOT_FAULT_CODE code c).setFld F.SLOT_FAULT_RING ring c).setFld F.SLOT_FAULT_SLOT slot c).setFld
    F.SLOT_FAULT_INSTR instr c).setBit F.SLOT_FAULT_VALID 0 c

/-- The SLOT_FAULT.INSTR code of a slot opcode: FILL, DRAIN, WAITF, WAITD (R226). -/
def slotInstr (op : BitVec 8) : Nat := op.toNat - 0x48

/-- Whether a slot opcode's taint is TAINT_OUT: FILL and WAITD (R219, R220). -/
def slotOut (op : BitVec 8) : Bool := op == 0x48 || op == 0x4B

/-- The ring and slot of a slot instruction. -/
def slotOf (x : Engine) (b : KBits) : Nat × Nat := (b.f 49 46, (x.rs (b.f 45 41)).toNat)

/-- A slot instruction ends with the poison flag (R220). -/
def State.slotPoison (s : State) (c : Nat) (op : BitVec 8) (ring slot : Nat) : State :=
  let s := (s.taint c (slotOut op) ring true).addSat F.SLOT_POISON_CNT_COUNT 1 c
  let s := (s.setBit F.SLOT_EVT_POISON 0 c).latchSlot c codeSlotPoison ring slot (slotInstr op)
  s.raiseOnce c
    { code := codeSlotPoison, cls := 0, unit := c, d0 := BitVec.ofNat 32 ring, d1 := BitVec.ofNat 32 slot
      d2 := BitVec.ofNat 32 (slotInstr op) }

/-- A WAITF or WAITD ends by its watchdog (R219). -/
def State.slotTimeout (s : State) (c : Nat) (op : BitVec 8) (ring slot : Nat) : State :=
  let s := (s.taint c (slotOut op) ring true).addSat F.SLOT_TIMEOUT_CNT_COUNT 1 c
  let s := (s.setBit F.SLOT_EVT_TIMEOUT 0 c).latchSlot c codeSlotTimeout ring slot (slotInstr op)
  s.raiseOnce c
    { code := codeSlotTimeout, cls := 0, unit := c, d0 := BitVec.ofNat 32 ring, d1 := BitVec.ofNat 32 slot
      d2 := BitVec.ofNat 32 (slotInstr op) }

/-- Delivers a result to a slot instruction: poison is reported and taints (R220); a WAITF or WAITD whose condition holds
clears its taint (R222); no slot instruction faults (R144). -/
def slotFinish (e : EngId) (op : BitVec 8) (b : KBits) (r : OpResult) (s : State) : State :=
  match coreOf e with
  | none => s
  | some c =>
    let (ring, slot) := slotOf (s.eng e) b
    let s :=
      if r.poison then s.slotPoison c op ring slot
      else if op = 0x4A ∨ op = 0x4B then s.taint c (slotOut op) ring false
      else s
    s.retire e

/-! ### Slot instructions (R150, R151) -/

/-- The word of a slot instruction: FILL and WAITF use the fill word, DRAIN and WAITD the drain word. -/
def slotWord (op : BitVec 8) (g : Ring) (slot : Nat) : Nat := g.fill slot + (if op = 0x48 ∨ op = 0x4A then 0 else 4)

/-- The accesses already issued by a core's streams that a FILL (writes) or a DRAIN (reads) waits for: each stream with the
count of accesses it has performed (R151). (DESIGN CHOICE, log entry 168.) -/
def State.issued (s : State) (c : Nat) (writes : Bool) : List (Nat × Word) :=
  (List.range 16).filterMap (fun k => match s.presented c k with
    | some (a, _) => if (a.mode == 1) == writes then some (k, s.rd .STR_ACC c k) else none
    | none => none)

/-- FILL and DRAIN (R150, R151, R215). (DESIGN CHOICE, log entry 168.) -/
def countBody (op : BitVec 8) (e : EngId) (b : KBits) (s : State) : State :=
  match coreOf e with
  | none => s
  | some c =>
    let x := s.eng e
    let (r, slot) := slotOf x b
    let g := s.ring c r
    let a := slotWord op g slot
    if !s.slotOk g slot a then s.addrFault e a
    else if !s.opens a then s.block e op b
    else
      let s := if x.fence.isNone then s.settleAll c else s
      let fence := match x.fence with
        | some l => l
        | none => s.issued c (op == 0x48)
      let open_ := fence.filter (fun (k, n) => (((s.core c).stream k).cur).isSome && s.rd .STR_ACC c k == n)
      if open_ ≠ [] then (s.block e op b).updEng e (fun x => { x with fence := some open_ })
      else
        let v := x.rs (b.f 40 36) + BitVec.ofNat 32 (b.f 15 0)
        let (res, s) := (s.turnFor (requester e) a).msPerform (portOf e a) a (.add v)
        slotFinish e op b res s

/-- WAITF and WAITD (R150, R215, R218). -/
def waitBody (op : BitVec 8) (e : EngId) (b : KBits) (s : State) : State :=
  match coreOf e with
  | none => s
  | some c =>
    let x := s.eng e
    let (r, slot) := slotOf x b
    let g := s.ring c r
    let a := slotWord op g slot
    if !s.slotOk g slot a then s.addrFault e a
    else if !s.opens a then s.block e op b
    else
      let v := x.rs (b.f 40 36) + BitVec.ofNat 32 (b.f 15 0)
      afterBlocking (slotFinish e op b) e op b ((s.turnFor (requester e) a).msBlocking (portOf e a)
        { e := e, addr := a, cond := 4, a := v, delta := 0 })

/-- A slot instruction (R137, format SL). -/
def runSlot (op : BitVec 8) (body : BitVec 8 → EngId → KBits → State → State) (e : EngId) (b : KBits) (s : State) : State :=
  runInstr fetchOnly (fun b => b.z 35 16) (body op) e b s

/-- FILL (R150, R151). -/
def execFill (e : EngId) (b : KBits) (s : State) : Host.Outcome State Fault Refusal := done (runSlot 0x48 countBody e b s)

/-- DRAIN (R150, R151). -/
def execDrain (e : EngId) (b : KBits) (s : State) : Host.Outcome State Fault Refusal := done (runSlot 0x49 countBody e b s)

/-- WAITF (R150, R218). -/
def execWaitf (e : EngId) (b : KBits) (s : State) : Host.Outcome State Fault Refusal := done (runSlot 0x4A waitBody e b s)

/-- WAITD (R150, R218). -/
def execWaitd (e : EngId) (b : KBits) (s : State) : Host.Outcome State Fault Refusal := done (runSlot 0x4B waitBody e b s)

/-! ### Watches (R79, R82, R107, R218, R219) -/

/-- Delivers a result to the instruction that waits for it. -/
def watchFinish (e : EngId) (op : BitVec 8) (b : KBits) (r : OpResult) (s : State) : State :=
  if op = 0x50 then msFinish e b r s else slotFinish e op b r s

/-- An engine whose watch's result has arrived: it completes its instruction, or, where a HALT waits for it, stops and keeps
the result for its resumption (R107). -/
def State.takeResult (s : State) (e : EngId) (r : OpResult) : State :=
  let x := s.eng e
  match x.wait with
  | .parked op b =>
    if x.withdraw ∧ !x.expired then
      let s := s.setEng e { x with withdraw := false, stopped := true, got := some r }
      match coreOf e with
      | some c => s.settleHalt c
      | none => s
    else
      let halt := x.withdraw
      let s := watchFinish e op b r s
      if halt then
        match coreOf e with
        | some c => if (s.core c).state = 2 then (s.updEng e (fun x => { x with stopped := true })).settleHalt c else s
        | none => s
      else s
  | _ => s

/-- The word of the watch an engine has parked: that of its CMPCNT or of its slot instruction. -/
def State.watchAddr (s : State) (e : EngId) (op : BitVec 8) (b : KBits) : Nat :=
  let x := s.eng e
  if op = 0x50 then msAddr x b
  else match coreOf e with
    | some c => slotWord op (s.ring c (slotOf x b).1) (slotOf x b).2
    | none => 0

/-- The wheel turns to the connection of an engine's port to the octet of its watch (R79, R82). -/
def State.watchTurn (s : State) (e : EngId) : State :=
  match (s.eng e).wait with
  | .parked op b => s.turnFor (requester e) (s.watchAddr e op b)
  | _ => s

/-- WATCH_RESULT: a performed watch's result reaches its requester (R79). -/
def execWatchResult (e : EngId) (s : State) : Host.Outcome State Fault Refusal :=
  done (match s.stores.results.find? (fun r => r.1 == e) with
    | some r =>
      let s := s.watchTurn e
      { s with stores := { s.stores with results := s.stores.results.filter (fun v => v.1 != e) } }.takeResult e r.2
    | none => s)

/-- A WAITF or WAITD that timed out completes (R219). -/
def timeoutFinish (e : EngId) (op : BitVec 8) (b : KBits) (s : State) : State :=
  match coreOf e with
  | none => s
  | some c =>
    let (ring, slot) := slotOf (s.eng e) b
    (s.slotTimeout c op ring slot).retire e

/-- WATCH_WITHDRAW: a requested withdrawal is carried out, unless the watch has been performed (R82): after its watchdog the
instruction completes (R219); for a HALT the engine stops and the instruction is started again on resumption (R107). -/
def execWatchWithdraw (e : EngId) (s : State) : Host.Outcome State Fault Refusal :=
  let x := s.eng e
  done (match x.wait with
    | .parked op b =>
      if !(x.withdraw || x.expired) || s.stores.results.any (fun r => r.1 == e) then s
      else
        let s := (s.watchTurn e).dropWatches (fun y => y == e)
        let s := if x.expired then timeoutFinish e op b s
          else s.updEng e (fun x => { x with wait := .blocked op b, withdraw := false, stopped := true, since := none })
        match coreOf e with
        | some c =>
          if x.withdraw ∧ (s.core c).state = 2 then (s.updEng e (fun x => { x with stopped := true, withdraw := false })).settleHalt c else s
        | none => s
    | _ => s)

/-- Whether a core's slot watchdog has run out: SLOT_WDOG microseconds since its instruction started (R218). -/
def State.slotExpired (s : State) (c : Nat) : Bool :=
  s.fld F.SLOT_WDOG_US c != 0 && !s.auditPauses c &&
    match (s.core c).fetch.since with
    | some t => decide (s.fld F.SLOT_WDOG_US c * 1000 ≤ s.elapsed t)
    | none => false

/-- SLOT_WATCHDOG_EXPIRY: the watchdog of a waiting WAITF or WAITD expires; its parked watch is to be withdrawn, and a retry
ends at once (R218, R219); while an audit pauses it, it does not advance (R484). -/
def execSlotWatchdogExpiry (c : Fin 32) (s : State) : Host.Outcome State Fault Refusal :=
  let e := EngId.fetch c
  let slotWait (op : BitVec 8) : Bool := op == 0x4A || op == 0x4B
  done (if !s.slotExpired c then s
    else match (s.eng e).wait with
      | .parked op _ => if slotWait op ∧ (s.eng e).got = none then s.updEng e (fun x => { x with expired := true }) else s
      | .listFull op b => if slotWait op ∧ !(s.eng e).stopped then timeoutFinish e op b s else s
      | _ => s)

/-- The retry of a blocking operation that found its watch list full (R78); the word's ring entry, store and band are checked again
(R90, R215, R520). -/
def State.retryWatch (s : State) (e : EngId) : State :=
  match (s.eng e).wait with
  | .listFull op b =>
    if (s.eng e).stopped then s
    else if op = 0x50 then cmpcntBody e b s
    else waitBody op e b s
  | _ => s

/-! ### Accesses at store ports (R71, R74, R75) -/

/-- STORE_ACCESS: an access that waits at a store port is performed in the wheel step that connects it (R71, R74, R75).
(DEDUCED, log entry 172.) -/
def execStoreAccess (r : AccessReq) (s : State) : Host.Outcome State Fault Refusal :=
  done (match r with
    | .stream c k => s.streamStep c k
    | .retry e => s.retryWatch e
    | .port store port addr op => s.portServe store port addr.toNat op
    | .request store cls member addr op => s.requestSys store { cls := cls, member := member, addr := addr.toNat, op := some op }
    | .system store => s.serveNext store)

/-! ### Cutting slots (R223) -/

/-- Whether software may write a core's configuration: IDLE, READY, HALTED or FAULTED (R110, R161, R216). -/
def State.configurable (s : State) (c : Nat) : Bool :=
  let st := (s.core c).state
  st == 0 || st == 1 || st == 3 || st == 4

/-- A write of RING_CUT (R223, R226): GO captures the named words, unless a cut runs; a ring or slot that is not there is
rejected. -/
def State.writeRingCut (s : State) (c : Nat) (v : Word) : State :=
  let s := s.plainWrite .RING_CUT (v &&& 0x7FF) c
  if !v.getLsbD 31 ∨ s.bit F.RING_CUT_BUSY c then s
  else
    let g := s.ring c (s.fld F.RING_CUT_RING c)
    let all := s.bit F.RING_CUT_ALL c
    let slot := s.fld F.RING_CUT_SLOT c
    if !g.valid ∨ (!all ∧ g.slots ≤ slot) then s.setBit F.CORE_EVT_CFG_REJECT 0 c
    else
      let slots := if all then List.range g.slots else [slot]
      let s := (s.setBit F.RING_CUT_BUSY 0 c).setBit F.RING_CUT_GO 0 c
      s.updCore c (fun k => { k with cut := some (slots.flatMap (fun i => [g.fill i, g.fill i + 4])) })

/-- RING_CUT (R223). -/
def execRingCut (c : Fin 32) (value : Word) (s : State) : Host.Outcome State Fault Refusal := done (s.writeRingCut c value)

/-- Sets the poison of a count word and leaves its data bits unchanged (R223). -/
def State.cutWord (s : State) (a : Nat) : State :=
  let s := s.turnFor (.sys 3 0) a
  s.putWord a (s.rawWord a ^^^ (s.flips.look a 0).extractLsb' 0 32) true

/-- RING_CUT_DONE: the cut's writes are made, those outside the stores it may write or in a band that is not ACTIVE being
skipped (R223); not before the stores are zeroed (R88). -/
def execRingCutDone (c : Fin 32) (s : State) : Host.Outcome State Fault Refusal :=
  done (match (s.core c).cut with
    | none => s
    | some l =>
      let ok (a : Nat) : Bool := countStore a && s.storeOk a 1
      if !(l.filter ok).all s.opens then s
      else
        let s' := (l.filter ok).foldl State.cutWord s
        let s' := ((s'.clrBit F.RING_CUT_BUSY 0 c).clrBit F.RING_CUT_GO 0 c).setBit F.SLOT_EVT_CUT_DONE 0 c
        let s' := if l.all ok then s' else s'.setBit F.CORE_EVT_CFG_REJECT 0 c
        s'.updCore c (fun k => { k with cut := none, slotCut := true }))

/-- A write of word `word` of ring table entry `r`: RING_LO, RING_HI or RING_STRIDE (R216). -/
def State.writeRing (s : State) (c r word : Nat) (v : Word) : State :=
  if s.configurable c then
    s.plainWrite (if word = 0 then .RING_LO else if word = 1 then .RING_HI else .RING_STRIDE) v c r
  else s.setBit F.CORE_EVT_CFG_REJECT 0 c

/-- RING_TABLE_WRITE (R216). -/
def execRingTableWrite (c : Fin 32) (ring : Fin 16) (word : Fin 3) (value : Word) (s : State) :
    Host.Outcome State Fault Refusal := done (s.writeRing c ring word value)

end Sys2Proof.Machine
end

