-- ==== Sys2Proof/Machine/Chain.lean ====
section
/-! DEFINITION. The weight chain: HSEND, HRECV and QREL (R117 to R122, R153, R169), stalls and cuts. -/

namespace Sys2Proof.Machine

/-- The chain descriptor's tile size in words by TYPE; none where TYPE is not one R169 allows. -/
def chainTile (ty : Nat) : Option Nat := if ty = 0 ∨ ty = 1 then some 1024 else if ty = 3 then some 2048 else none

/-- The checks of a chain descriptor (R169). -/
def Desc.chainOk (d : Desc) : Bool :=
  match chainTile d.ty with
  | none => false
  | some n => decide (1 ≤ d.e0 ∧ d.e0 ≤ 4096 ∧ d.base % 256 = 0 ∧ d.str1 % 256 = 0 ∧ 4 * n ≤ d.str1 ∧
      d.base + (d.e0 - 1) * d.str1 + 4 * n ≤ storeSize 0)

/-- The tag after `tag` in a pass of `e0` tiles (R118, R119). -/
def nextTag (tag : Word) (e0 : Nat) : Word :=
  let t := tag.toNat % 4096
  if t + 1 < e0 then tag + 1 else ((tag >>> 12) + 1) <<< 12

/-- Reads the tile of a tag from the weight store through the core's port (R119, R169, R520). -/
def State.readTile (s : State) (c : Nat) (d : Desc) (n : Nat) (tag : Word) : (List Word × Bool) × State :=
  let a := d.base + (tag.toNat % 4096) * d.str1
  let (l, s) := (List.range (n / 64)).foldl (fun (acc : List (Word × Bool) × State) i =>
    let (l, s) := (acc.2.turnFor (.core c) (a + 256 * i)).streamRead c (a + 256 * i) 64
    (acc.1 ++ l, s)) ([], s)
  ((l.map (fun w => w.1), l.any (fun w => w.2)), s)

/-- Reads the tile of a tag as a local fill: each access is a request of Q0, whose account returns to zero at its end where no stream
holds Q0 (R119, R214). -/
def State.fillTile (s : State) (c : Nat) (d : Desc) (n : Nat) (tag : Word) : (List Word × Bool) × State :=
  let a := d.base + (tag.toNat % 4096) * d.str1
  let (l, s) := (List.range (n / 64)).foldl (fun (acc : List (Word × Bool) × State) i =>
    let (l, s) := acc.2.fillAccess c (a + 256 * i) 64
    (acc.1 ++ l, s)) ([], s)
  let s := s.updCore c (fun x => { x with
    accounts := x.accounts.filter (fun p => p.1 % 8 != 0 || (List.range 16).any (fun j => (x.stream j).holds.contains 0)) })
  ((l.map (fun w => w.1), l.any (fun w => w.2)), s)

/-- HRECV delivers a tile into Q0 and expects the next one (R119). -/
def State.deliverTile (s : State) (c : Nat) (d : Desc) (words : List Word) (poison : Bool) (tag : Word) : State :=
  (s.pushTile c words poison tag).setFld F.CHAIN_TAG_EXPECT (nextTag tag d.e0).toNat c

/-- HRECV on its descriptor (R119, R153); a tile that comes from the weight store waits for its zeroing (R88). -/
def hrecvBody (e : EngId) (b : KBits) (s : State) : State :=
  match coreOf e with
  | none => s
  | some c =>
    let d := Desc.of ((s.eng e).rdesc (b.f 49 45))
    let n := (chainTile d.ty).getD 1024
    let tag := s.rd .CHAIN_TAG c
    let opens := s.opens (d.base + (tag.toNat % 4096) * d.str1)
    if !d.chainOk then s.instrFault e codeDescInvalid
    else if !(s.core c).room 0 n then s.block e 0x59 b
    else if s.bit F.CHAIN_CFG_SOURCE c && !opens then s.block e 0x59 b
    else if s.bit F.CHAIN_CFG_SOURCE c then
      let ((ws, p), s) := s.readTile c d n tag
      (s.deliverTile c d ws p tag).retire e
    else
      let s := s.updCore c (fun k => { k with skid := k.skid.filter (fun t => condHolds 4 t.tag tag) })
      match (s.core c).skid with
      | [] => s.block e 0x59 b
      | t :: r =>
        match (t :: r).find? (fun t => t.tag == tag) with
        | some t =>
          let s := s.updCore c (fun k => { k with skid := k.skid.filter (fun u => u.tag != tag) })
          (s.deliverTile c d t.words t.poison tag).retire e
        | none =>
          if !opens then s.block e 0x59 b
          else
            let s := (s.addSat F.CHAIN_LOCAL_CNT_COUNT 1 c).setBit F.CORE_EVT_CHAIN_LOCAL 0 c
            let ((ws, p), s) := s.fillTile c d n tag
            (s.deliverTile c d ws p tag).retire e

/-- HRECV (R119). -/
def runHrecv (e : EngId) (b : KBits) (s : State) : State := runInstr fetchOnly (fun b => b.z 44 0) hrecvBody e b s

/-- HRECV (R119, R153). -/
def execHrecv (e : EngId) (b : KBits) (s : State) : Host.Outcome State Fault Refusal := done (runHrecv e b s)

/-- The oldest tile of Q0 that a core has not sent (R120). -/
def Core.unsent (k : Core) : Option Tile := k.tiles.find? (fun t => !t.sent)

/-- Whether a core's skid buffer is full: two tiles (R117). -/
def Core.skidFull (k : Core) : Bool := decide (2 ≤ k.skid.length)

/-- A sender waits on a full skid buffer: a stall begins, unless it has begun before (R121). -/
def State.startStall (s : State) (e : EngId) : State :=
  s.updEng e (fun x => { x with stall := some (x.stall.getD (s.time, false)) })

/-- HSEND (R120, R153): copies the oldest unsent tile into the successor's skid buffer; a core that is no longer a member
discards what it receives (R122); while the successor's audit program runs, with its skid buffer saved away, the tile waits
(R483). (DEDUCED, log entry 170; DESIGN CHOICE, log entry 135.) -/
def hsendBody (e : EngId) (b : KBits) (s : State) : State :=
  match coreOf e with
  | none => s
  | some c =>
    if !s.hasNext c then s.retire e
    else
      let n := s.fld F.CHAIN_CFG_NEXT c
      match (s.core c).unsent with
      | none => s.block e 0x58 b
      | some t =>
        if s.bit F.CHAIN_CFG_MEMBER n && (s.core n).skidFull then (s.block e 0x58 b).startStall e
        else if s.bit F.CHAIN_CFG_MEMBER n && s.auditRuns n then s.block e 0x58 b
        else
          let s := if s.bit F.CHAIN_CFG_MEMBER n then s.updCore n (fun k => { k with skid := k.skid ++ [t] }) else s
          let s := s.updCore c (fun k => { k with tiles := k.tiles.map (fun u => if u.id = t.id then { u with sent := true } else u) })
          (s.purgeTiles c).retire e

/-- HSEND (R120). -/
def runHsend (e : EngId) (b : KBits) (s : State) : State := runInstr fetchOnly (fun b => b.z 49 0) hsendBody e b s

/-- HSEND (R120, R153). -/
def execHsend (e : EngId) (b : KBits) (s : State) : Host.Outcome State Fault Refusal := done (runHsend e b s)

/-- QREL (R153): releases the oldest unreleased tile in Q0, or blocks until one arrives. -/
def qrelBody (e : EngId) (b : KBits) (s : State) : State :=
  match coreOf e with
  | none => s
  | some c =>
    match (s.core c).tiles.find? (fun t => !t.released) with
    | none => s.block e 0x5A b
    | some t => (s.releaseTile c t.id).retire e

/-- QREL (R153). -/
def runQrel (e : EngId) (b : KBits) (s : State) : State := runInstr execOnly (fun b => b.z 49 0) qrelBody e b s

/-- QREL (R153); q other than 0 is illegal. -/
def execQrel (e : EngId) (b : KBits) (s : State) : Host.Outcome State Fault Refusal := done (runQrel e b s)

/-- Whether the HSEND of a RUNNING core waits on a full skid buffer and has done so for 3,413.3 ns, in whole nanoseconds 3,414, and that
stall has not been counted (R121). -/
def State.stalled (s : State) (c : Nat) : Bool :=
  (s.core c).state == 2 && !(s.core c).fetch.stopped &&
  (match (s.core c).fetch.wait, (s.core c).fetch.stall with
    | .blocked op _, some (t, counted) => op == 0x58 && !counted && decide (3414 ≤ s.elapsed t)
    | _, _ => false) &&
  s.hasNext c && (s.core c).unsent.isSome &&
    (s.bit F.CHAIN_CFG_MEMBER (s.fld F.CHAIN_CFG_NEXT c) && (s.core (s.fld F.CHAIN_CFG_NEXT c)).skidFull)

/-- CHAIN_STALL: an HSEND's stall has lasted 3,413.3 ns (R121); one whose receiver is under audit is not timed (R484). -/
def execChainStall (c : Fin 32) (s : State) : Host.Outcome State Fault Refusal :=
  done (if !s.stalled c ∨ s.underAudit (s.fld F.CHAIN_CFG_NEXT c) then s
    else
      let chain := s.fld F.CHAIN_CFG_CHAIN_ID c
      let s := s.updCore c (fun k => { k with fetch := { k.fetch with stall := k.fetch.stall.map (fun v => (v.1, true)) } })
      ((s.addSat F.CHAIN_STALL_CNT_COUNT 1 c).setBit F.CORE_EVT_CHAIN_STALL 0 c).raiseOnce chain
        { code := 0x14, cls := 0, unit := c, d0 := BitVec.ofNat 32 chain, d1 := BitVec.ofNat 32 (s.fld F.CHAIN_CFG_NEXT c) })

/-- A CHAIN_CUT request: removes a member from its chain (R122); it ends an audit of the core (R484). -/
def State.cutChain (s : State) (c : Nat) : State :=
  let s := s.endAudit c
  if !s.bit F.CHAIN_CFG_MEMBER c then s
  else
    let hasPred := s.bit F.CHAIN_CFG_PRED_VALID c
    let hasNext := s.bit F.CHAIN_CFG_NEXT_VALID c
    let pred := s.fld F.CHAIN_CFG_PRED c
    let next := s.fld F.CHAIN_CFG_NEXT c
    let s := s.updCore c (fun k => { k with skid := [] })
    let s := if hasPred then
        let s := s.setFld F.CHAIN_CFG_NEXT_VALID (if hasNext then 1 else 0) pred
        let s := s.updCore pred (fun k => { k with fetch := { k.fetch with stall := k.fetch.stall.map (fun _ => (s.time, false)) } })
        if hasNext then s.setFld F.CHAIN_CFG_NEXT next pred else s
      else s
    let s := if hasNext then
        if hasPred then s.setFld F.CHAIN_CFG_PRED pred next
        else (s.setFld F.CHAIN_CFG_PRED_VALID 0 next).setFld F.CHAIN_CFG_SOURCE 1 next
      else s
    let s := (s.setFld F.CHAIN_CFG_MEMBER 0 c).setBit F.CORE_EVT_CUT 0 c
    let s := s.purgeTiles c
    if hasPred then s.purgeTiles pred else s

end Sys2Proof.Machine
end

