-- ==== Sys2Proof/Machine/Float.lean ====
section
/-! DEFINITION. binary32 and BF16 arithmetic, rounded to nearest with ties to even (R188). -/

namespace Sys2Proof.Machine

/-- A binary32 value: a NaN, an infinity with its sign, or ±m × 2^e with its sign kept for zero. -/
inductive FVal where
  | nan
  | inf (neg : Bool)
  | fin (neg : Bool) (m : Nat) (e : Int)
  deriving DecidableEq, Repr

/-- The one NaN a result can be (R188). (DEDUCED, log entry 165.) -/
def fNaN : Word := 0x7FC00000

/-- The value of a binary32 word. (DEDUCED, log entry 165.) -/
def fDecode (w : Word) : FVal :=
  let neg := w.getLsbD 31
  let ex : Nat := w.toNat / 2 ^ 23 % 256
  let m : Nat := w.toNat % 2 ^ 23
  if ex = 255 then (if m = 0 then .inf neg else .nan)
  else if ex = 0 then .fin neg m (-149)
  else .fin neg (m + 2 ^ 23) ((ex : Int) - 150)

/-- The sign bit of a word. -/
def fSign (neg : Bool) : Nat := if neg then 2 ^ 31 else 0

/-- 2^x for a non-negative exponent; 1 for a negative one. -/
def pow2 (x : Int) : Nat := 2 ^ x.toNat

/-- A division rounded to nearest with ties to even, of natural numbers. -/
def roundNat (n d : Nat) : Nat :=
  let q := n / d
  let r := n % d
  if d < 2 * r ∨ 2 * r = d ∧ q % 2 = 1 then q + 1 else q

/-- The binary32 word nearest to ±n / d, ties to even; n / d is positive (R188). -/
def fRound (neg : Bool) (n d : Nat) : Word :=
  let l : Int := (Nat.log2 n : Int) - (Nat.log2 d : Int)
  let try_ (e : Int) : Nat × Nat := (n * pow2 (-e), d * pow2 e)
  let e0 : Int := if l - 23 < -149 then -149 else l - 23
  let e : Int := if (try_ e0).1 / (try_ e0).2 < 2 ^ 23 ∧ -149 < e0 then e0 - 1 else e0
  let m := roundNat (try_ e).1 (try_ e).2
  let bits := (e + 149).toNat * 2 ^ 23 + m
  BitVec.ofNat 32 (fSign neg + (if 0x7F800000 ≤ bits then 0x7F800000 else bits))

/-- The word of a value that is exact or needs rounding. -/
def fEncode : FVal → Word
  | .nan => fNaN
  | .inf neg => BitVec.ofNat 32 (fSign neg + 0x7F800000)
  | .fin neg m e => if m = 0 then BitVec.ofNat 32 (fSign neg) else fRound neg (m * pow2 e) (pow2 (-e))

/-- The signed mantissa of a value at exponent `e`. -/
def fAlign (neg : Bool) (m : Nat) (ex e : Int) : Int := (if neg then -1 else 1) * ((m * pow2 (ex - e) : Nat) : Int)

/-- Sum of two binary32 words. -/
def fAdd (a b : Word) : Word :=
  match fDecode a, fDecode b with
  | .nan, _ => fNaN
  | _, .nan => fNaN
  | .inf x, .inf y => if x = y then fEncode (.inf x) else fNaN
  | .inf x, _ => fEncode (.inf x)
  | _, .inf y => fEncode (.inf y)
  | .fin x m e, .fin y n f =>
    let g := if e < f then e else f
    let v := fAlign x m e g + fAlign y n f g
    if v = 0 then fEncode (.fin (x && y && m == 0 && n == 0) 0 0)
    else fEncode (.fin (decide (v < 0)) v.natAbs g)

/-- The word with its sign changed; a NaN stays the one NaN (R188). -/
def fNeg (a : Word) : Word := if fDecode a = .nan then fNaN else a ^^^ 0x80000000

/-- The word with its sign cleared; a NaN stays the one NaN (R188). -/
def fAbs (a : Word) : Word := if fDecode a = .nan then fNaN else a &&& 0x7FFFFFFF

/-- Difference of two binary32 words. -/
def fSub (a b : Word) : Word := if fDecode b = .nan then fNaN else fAdd a (b ^^^ 0x80000000)

/-- Product of two binary32 words. -/
def fMul (a b : Word) : Word :=
  match fDecode a, fDecode b with
  | .nan, _ => fNaN
  | _, .nan => fNaN
  | .inf x, .inf y => fEncode (.inf (x != y))
  | .inf x, .fin y n _ => if n = 0 then fNaN else fEncode (.inf (x != y))
  | .fin x m _, .inf y => if m = 0 then fNaN else fEncode (.inf (x != y))
  | .fin x m e, .fin y n f => fEncode (.fin (x != y) (m * n) (e + f))

/-- Whether a word is a NaN. -/
def fIsNaN (a : Word) : Bool := fDecode a == .nan

/-- Whether a is below b, neither being a NaN. -/
def fLess (a b : Word) : Bool :=
  match fDecode a, fDecode b with
  | .nan, _ => false
  | _, .nan => false
  | .inf x, .inf y => x && !y
  | .inf x, _ => x
  | _, .inf y => !y
  | .fin x m e, .fin y n f =>
    let g := if e < f then e else f
    decide (fAlign x m e g < fAlign y n f g)

/-- Minimum or maximum; where the spec states no result, a free choice decides between a NaN and the other operand, or
between the zeros (R187, R188; DESIGN CHOICE, log entry 25). -/
def fPick (max : Bool) (a b : Word) : Word :=
  if fIsNaN a && fIsNaN b then fNaN
  else if fIsNaN a || fIsNaN b then
    if Config.fpFirst max a b then fNaN else if fIsNaN a then b else a
  else if a != b && !fLess a b && !fLess b a then (if Config.fpFirst max a b then a else b)
  else if fLess a b = max then b else a

/-- The integer square root by `bits` halvings: the largest r with r² ≤ n among numbers of that many bits. -/
def isqrtFrom (n : Nat) : Nat → Nat → Nat
  | 0, r => r
  | k + 1, r => if (r + 2 ^ k) * (r + 2 ^ k) ≤ n then isqrtFrom n k (r + 2 ^ k) else isqrtFrom n k r

/-- The integer square root. -/
def isqrt (n : Nat) : Nat := isqrtFrom n (Nat.log2 n / 2 + 1) 0

/-- 1 / a, correctly rounded (R188). -/
def fRcp (a : Word) : Word :=
  match fDecode a with
  | .nan => fNaN
  | .inf x => fEncode (.fin x 0 0)
  | .fin x m e => if m = 0 then fEncode (.inf x) else fRound x (pow2 (-e)) (m * pow2 e)

/-- 1 / √a, correctly rounded (R188): the square root of 1 / a to 80 bits after the binary point of its scale, with a sticky
bit for what lies below. -/
def fRsqrt (a : Word) : Word :=
  match fDecode a with
  | .nan => fNaN
  | .inf x => if x then fNaN else 0
  | .fin x m e =>
    if m = 0 then fEncode (.inf x)
    else if x then fNaN
    else
      let n := pow2 (-e) * 2 ^ 320
      let d := m * pow2 e
      let q := n / d
      let r := isqrt q
      let exact := decide (r * r = q ∧ n % d = 0)
      fRound false (2 * r + (if exact then 0 else 1)) (2 ^ 161)

/-- 2^(k / 2^t) in units of 2^−200, for a fraction of t bits: the product of the square roots of 2 that its bits name, each
taken to 200 bits. -/
def exp2Frac (k : Nat) : Nat → Nat → Nat
  | 0, _ => 2 ^ 200
  | t + 1, root =>
    let next := isqrt (root * 2 ^ 200)
    let rest := exp2Frac k t next
    if k.testBit t then rest * next / 2 ^ 200 else rest

/-- 2^a, correctly rounded (R188): exactly for an integer; else from the fraction's power to 200 bits, which is irrational, so
that a sticky bit decides every rounding. -/
def fExp2 (a : Word) : Word :=
  match fDecode a with
  | .nan => fNaN
  | .inf x => if x then 0 else fEncode (.inf false)
  | .fin x m e =>
    if m = 0 ∨ (Nat.log2 m : Int) + e < -25 then 0x3F800000
    else if 8 < (Nat.log2 m : Int) + e then (if x then 0 else fEncode (.inf false))
    else
      let v : Int := (if x then -1 else 1) * ((m * pow2 e : Nat) : Int)
      let t := (-e).toNat
      let i := v / (2 ^ t : Int)
      let k := (v % (2 ^ t : Int)).toNat
      if k = 0 then fRound false (pow2 i) (pow2 (-i))
      else
        let f := exp2Frac k t (2 * 2 ^ 200)
        fRound false ((2 * f + 1) * pow2 i) (2 ^ 201 * pow2 (-i))

/-- The binary32 word nearest to an integer (CVTIF, R187). -/
def fOfInt (v : Int) : Word := if v = 0 then 0 else fRound (decide (v < 0)) v.natAbs 1

/-- The integer nearest to a binary32 word, ties to even, saturated; a NaN gives 0 (CVTFI, R187). -/
def fToInt (a : Word) : Int :=
  match fDecode a with
  | .nan => 0
  | .inf x => if x then -(2 ^ 31) else 2 ^ 31 - 1
  | .fin x m e => sat32 ((if x then -1 else 1) * ((roundNat (m * pow2 e) (pow2 (-e)) : Nat) : Int))

/-- A binary32 word rounded to BF16, in bits [15:0] (CVTFB, R188). -/
def fToBf (a : Word) : Word :=
  if fIsNaN a then 0x7FC0
  else
    let hi := a.toNat / 2 ^ 16
    let lo := a.toNat % 2 ^ 16
    BitVec.ofNat 32 (if 2 ^ 15 < lo ∨ lo = 2 ^ 15 ∧ hi % 2 = 1 then hi + 1 else hi)

/-- The binary32 word of a BF16 value (CVTBF, R188). -/
def bfToF (a : Word) : Word := if fIsNaN (a <<< 16) then fNaN else a <<< 16

/-- Rounds a fixed tree of sums: pairs of neighbours, then pairs of those sums (R188). -/
def pairSums (f : Word → Word → Word) : List Word → List Word
  | a :: b :: r => f a b :: pairSums f r
  | l => l

/-- The sum of 64 columns in the fixed tree of six levels (R188). -/
def treeSum (f : Word → Word → Word) (l : List Word) : Word :=
  ((List.range 6).foldl (fun l _ => pairSums f l) l).headD 0

end Sys2Proof.Machine
end

