-- ==== Sys2Proof/Machine/Tensor.lean ====
section
/-! DEFINITION. What tensor instructions share: accumulator rows (R98, R174, R175), the descriptor checks and input frames of
R166 to R173, and weight tiles (R170, R179). -/

namespace Sys2Proof.Machine

/-! ### Accumulator rows -/

/-- Row `r` of a core's accumulator buffer, modulo 512 (R174); a row that nothing has written since the buffer became
undefined holds free values (R98; log entry 20). -/
def State.accRow (s : State) (c r : Nat) : List Word :=
  let k := s.core c
  k.acc.look (r % 512) ((List.range 64).map (fun i => Config.freeWord k.accGen (c * 65536 + (r % 512) * 64 + i)))

/-- The poison bit of a row (R175). -/
def State.accPoison (s : State) (c r : Nat) : Bool :=
  let k := s.core c
  k.accPoison.look (r % 512) (Config.freeBit k.accGen (c * 65536 + r % 512))

/-- Writes a row and its poison bit. -/
def State.setAcc (s : State) (c r : Nat) (v : List Word) (p : Bool) : State :=
  s.updCore c (fun k => { k with acc := k.acc.put (r % 512) v, accPoison := k.accPoison.put (r % 512) p })

/-- Column `i` of a row, as a signed value. -/
def State.accAt (s : State) (c r i : Nat) : Int := ((s.accRow c r).getD i 0).toInt

/-- Writes exact values to a row: replacing it, or added to it with saturation (R250). -/
def State.putRow (s : State) (c r : Nat) (add : Bool) (v : Nat → Int) (p : Bool) : State :=
  s.setAcc c r ((List.range 64).map (fun i => wordOf (sat32 (if add then s.accAt c r i + v i else v i)))) p

/-- Whether any of the rows is poisoned. -/
def State.anyPoison (s : State) (c : Nat) (rows : List Nat) : Bool := rows.any (fun r => s.accPoison c r)

end Sys2Proof.Machine

namespace Sys2Proof

/-- The input queue of a tensor instruction (R177). -/
def KBits.tq (b : KBits) : Nat := b.f 49 47
/-- The first accumulator row of formats TA, TP and TR (R177). -/
def KBits.trow (b : KBits) : Nat := b.f 41 33
/-- acc of formats TA and TP: 1 adds or combines (R177). -/
def KBits.tadd (b : KBits) : Bool := b.f 32 31 == 1

end Sys2Proof

namespace Sys2Proof.Machine

/-- A tensor instruction of a core's execute engine: its core, or nothing for another engine (R176). -/
def onExec (body : Nat → EngId → KBits → State → State) (e : EngId) (b : KBits) (s : State) : State :=
  match coreOf e with
  | some c => body c e b s
  | none => s

/-- Raises SHAPE_OVER for the present instruction, which does nothing else (R168). -/
def shapeOver (c : Nat) (e : EngId) (s : State) : State := (s.raiseShape c (s.eng e).pc).retire e

/-- A DESC_INVALID of the present instruction (R197). -/
def descFault (e : EngId) (s : State) : State := s.instrFault e codeDescInvalid

/-! ### Input frames (R171, R172) -/

/-- Whether an input descriptor's fields are valid for an instruction that reads activations (R166, R171). -/
def Desc.inputOk (d : Desc) : Bool := d.fieldsOk && decide (d.ty ≤ 2)

/-- Whether K and the entry size of an input frame are within R171. (DESIGN CHOICE, log entry 157.) -/
def Desc.frameOk (d : Desc) : Bool := decide (1 ≤ d.e2 ∧ d.e2 ≤ 64 ∧ entryWords d.ty d.win ≤ 64)

/-- Whether a frame of `n` rows fits a bank of the operand store (R172). -/
def Desc.bankOk (d : Desc) (n : Nat) : Bool := decide (n * d.e2 * entryWords d.ty d.win ≤ 8192)

/-- The operands of an entry: each element less ZP (R171). -/
def operandsOf (d : Desc) (ws : List Word) : List Int :=
  (List.range d.win).map (fun x => elemValue d.ty (packedElem d.ty ws x) - d.zp)

/-- What an attempt to take an input frame gives: the frame and its poison; a wait; or an entry of the wrong length. -/
inductive FrameTake where
  | frame (rows : List (List (List Int))) (poison : Bool)
  | wait
  | badEntry
  deriving DecidableEq, Repr

/-- The entries queue `q` holds for the execute engine: none while it is outbound (R102). -/
def Core.inbound (k : Core) (q : Nat) : List QEntry := if (k.queue q).outbound then [] else (k.queue q).entries

/-- Moves the entries of queue `q` that a frame still lacks into the operand store (R172); answers whether one of them has another
length than the descriptor gives. -/
def Core.moveIn (k : Core) (d : Desc) (q : Nat) : Bool × Core :=
  let held := k.bank.look q []
  let l := (k.inbound q).take (d.e2 - held.length)
  (l.any (fun e => e.words.length != entryWords d.ty d.win),
    if l = [] then k
    else { k.setQueue q { k.queue q with entries := (k.queue q).entries.drop l.length } with bank := k.bank.put q (held ++ l) })

/-- Moves the entries of a frame of `n` rows from queues `q` onwards into the operand store as they arrive, and takes the frame once all
of it is there (R172); an entry of another length than the descriptor gives is found as it is moved. -/
def State.takeFrame (s : State) (c q n : Nat) (d : Desc) : FrameTake × State :=
  let (bad, k) := (List.range n).foldl (fun (acc : Bool × Core) i =>
    let (bad, k) := acc.2.moveIn d (q + i)
    (acc.1 || bad, k)) (false, s.core c)
  let rows := (List.range n).map (fun i => k.bank.look (q + i) [])
  let s := if k = s.core c then s else s.setCore c k
  if bad then (.badEntry, s)
  else if rows.any (fun r => r.length != d.e2) then (.wait, s)
  else (.frame (rows.map (fun r => r.map (fun e => operandsOf d e.words))) (rows.any (fun r => r.any (fun e => e.poison))), s)

/-- An instruction that has read a frame completes: its bank is free (R172). -/
def State.freeBank (s : State) (c : Nat) : State := s.updCore c (fun k => { k with bank := [], undo := none })

/-- Element `x` of channel `ch` of row `r` of a frame. -/
def frameAt (f : List (List (List Int))) (r ch x : Nat) : Int := ((f.getD r []).getD ch []).getD x 0

/-! ### Weight tiles (R170, R179, R248, R249) -/

/-- Byte `n` of a tile. -/
def tileByte (ws : List Word) (n : Nat) : Nat := ((ws.getD (n / 4) 0).toNat / 2 ^ (8 * (n % 4))) % 256

/-- The weight of input channel `i` for output channel `o` in a tile of weight type `wty` (R170, R248). -/
def tileWeight (wty : Nat) (ws : List Word) (i o : Nat) : Int :=
  match wty with
  | 0 => signedOf 8 (tileByte ws (64 * o + i))
  | 1 => signedOf 4 (tileByte ws (64 * (o / 2) + i) / (if o % 2 = 0 then 1 else 16))
  | _ => signedOf 12 (tileByte ws (128 * o + 2 * i) + 256 * tileByte ws (128 * o + 2 * i + 1))

/-- A word of four bytes. -/
def wordOfBytes (f : Nat → Nat) : Word := BitVec.ofNat 32 (f 0 % 256 + 256 * (f 1 % 256) + 65536 * (f 2 % 256) + 16777216 * (f 3 % 256))

/-- Tap block `t` of a diagonal tile of group size `g`, expanded to a whole I8 tile: every cell outside the block diagonal is
zero (R170, R184). -/
def expandDiag (ws : List Word) (g t : Nat) : List Word :=
  (List.range 1024).map (fun n => wordOfBytes (fun j =>
    let o := (4 * n + j) / 64
    let i := (4 * n + j) % 64
    if i / g = o / g then tileByte ws (64 * g * t + g * o + i % g) else 0))

/-- Words of a tile of a weight type (R104). -/
def tileSize (wty : Nat) : Nat := if wty = 2 then 2048 else 1024

/-- The unreleased tiles of Q0 from the load pointer on (R179). -/
def Core.ahead (k : Core) (ptr : Nat) : List Tile := k.tiles.filter (fun t => !t.released && decide (ptr ≤ t.id))

/-- The capacity check of R179: an instruction with rel = 0 that takes `n` tiles may not need more unreleased tiles at once
than Q0 holds. -/
def Core.tilesFit (k : Core) (rewind : Bool) (wty n : Nat) : Bool :=
  let behind := if rewind then 0 else (k.tiles.filter (fun t => !t.released && decide (t.id < k.loadPtr))).length
  decide (behind + n ≤ (if wty = 2 then 2 else 4))

/-- Releases the tile of a step where rel is set (R179). -/
def relTile (rel : Bool) (c : Nat) (id : Nat) (s : State) : State := if rel then s.releaseTile c id else s

end Sys2Proof.Machine
end

