-- ==== Sys2Proof/Machine/Matrix.lean ====
section
/-! DEFINITION. The matrix instructions MMA, CONV, WINO and DWCONV (R179 to R184, R247 to R254). -/

namespace Sys2Proof.Machine

/-- What a matrix instruction's fields and descriptor fix at issue (R167): its descriptor, weight type, rows of its frame,
steps, output positions, the accumulator rows it writes, the tiles it takes, and whether its remaining checks hold. -/
structure MatOp where
  d : Desc
  wty : Nat
  frameRows : Nat
  steps : Nat
  e : Nat
  rows : List Nat
  tiles : Nat
  ok : Bool
  deriving DecidableEq, Repr

/-- The wt field: 0 KEEP, 1 NEXT, 2 REWIND (R177). -/
def wtOf (b : KBits) : Nat := b.f 30 29
/-- The rel field (R177). -/
def relOf (b : KBits) : Bool := b.f 28 28 == 1
/-- The wty field: 0 I8, 1 I4, 2 I12 (R177). -/
def wtyOf (b : KBits) : Nat := b.f 27 26

/-- The rows that positions 0 to E − 1 write: one each, or two each with I4 weights (R174). -/
def outRows (row wty e : Nat) : List Nat :=
  if wty = 1 then (List.range (2 * e)).map (fun i => (row + i) % 512) else (List.range e).map (fun p => (row + p) % 512)

/-- The most positions a matrix instruction may have (R116, R181). -/
def maxE (wty : Nat) : Nat := if wty = 1 then 256 else 512

/-- MMA's plan (R181). -/
def mmaPlan (x : Engine) (b : KBits) : MatOp :=
  let d := Desc.of (x.rdesc (b.f 46 42))
  { d := d, wty := wtyOf b, frameRows := 1, steps := 1, e := d.win, rows := outRows b.trow (wtyOf b) d.win, tiles := 1
    ok := decide (d.win ≤ maxE (wtyOf b)) }

/-- The output positions of a filter row of `kw` taps (R182). -/
def convE (d : Desc) (kw sx dil : Nat) : Nat :=
  let span := (kw - 1) * dil + 1
  if d.win < span then 0 else (d.win - span) / sx + 1

/-- CONV's plan (R182). (DESIGN CHOICE, log entry 159.) -/
def convPlan (x : Engine) (b : KBits) : MatOp :=
  let d := Desc.of (x.rdesc (b.f 46 42))
  let kw := b.f 25 22 + 1
  let e := convE d kw (b.f 21 20 + 1) (b.f 19 17 + 1)
  { d := d, wty := wtyOf b, frameRows := 1, steps := kw, e := e, rows := outRows b.trow (wtyOf b) e, tiles := kw
    ok := decide (1 ≤ e ∧ e ≤ maxE (wtyOf b)) }

/-- DWCONV's plan (R184). (DESIGN CHOICE, log entry 159.) -/
def dwPlan (x : Engine) (b : KBits) : MatOp :=
  let d := Desc.of (x.rdesc (b.f 46 42))
  let kw := b.f 25 22 + 1
  let e := convE d kw (b.f 21 20 + 1) (b.f 19 17 + 1)
  { d := d, wty := 0, frameRows := 1, steps := kw, e := e, rows := outRows b.trow 0 e, tiles := 1
    ok := decide (1 ≤ e ∧ e ≤ 512 ∧ b.f 13 8 + kw ≤ 64 / 2 ^ b.f 16 14) }

/-- WINO's plan (R183). -/
def winoPlan (x : Engine) (b : KBits) : MatOp :=
  let d := Desc.of (x.rdesc (b.f 46 42))
  let e := d.win - 2
  { d := d, wty := 2, frameRows := 4, steps := 16, e := e, rows := (List.range (2 * e)).map (fun i => (b.trow + i) % 512), tiles := 16
    ok := decide (2 ≤ e ∧ e % 2 = 0 ∧ 2 * e ≤ 512) }

/-! ### The weights of a step (R179) -/

/-- A plane whose contents are undefined (R100, R179; DEDUCED, log entry 20). (DEDUCED, log entry 162.) -/
def State.undefPlane (s : State) (wty : Nat) : Plane × State :=
  let (g, s) := s.draw
  ({ tileId := 0, words := (List.range (tileSize wty)).map (fun i => Config.freeWord g i), poison := Config.freeBit g 0, wty := wty }, s)

/-- What selecting the weights of a step gives: the plane, with the tile it came from; a wait for a tile; or a tile of the
wrong size. -/
inductive PlaneTake where
  | plane (p : Plane) (fromTile : Option Nat)
  | wait
  | badTile
  deriving DecidableEq, Repr

/-- Loads a tile onto the shadow plane; `f` expands it (R100, R184). -/
def Core.loadShadow (k : Core) (wty : Nat) (f : List Word → List Word) (t : Tile) : Core :=
  { k with shadow := some { tileId := t.id, words := f t.words, poison := t.poison, wty := wty }, lastTaken := some t.id }

/-- The two planes exchange their roles between two steps (R100). -/
def Core.exchange (k : Core) : Core := { k with plane := k.shadow, shadow := k.plane }

/-- Loads the tile of a step onto the shadow plane, which becomes the active one (R100, R180). -/
def State.loadPlane (s : State) (c wty : Nat) (f : List Word → List Word) (t : Tile) : PlaneTake × State :=
  let s := s.updCore c (fun k => (k.loadShadow wty f t).exchange)
  (match (s.core c).plane with
    | some p => .plane p (some t.id)
    | none => .wait, s)

/-- Takes the next tile of Q0, from the oldest unreleased one when `rewind` is set (R179). -/
def State.nextTile (s : State) (c wty : Nat) (rewind : Bool) (f : List Word → List Word) : PlaneTake × State :=
  let k := s.core c
  match k.ahead (if rewind then 0 else k.loadPtr) with
  | [] => (.wait, s)
  | t :: _ =>
    if t.words.length ≠ tileSize wty then (.badTile, s)
    else (s.updCore c (fun k => { k with loadPtr := t.id + 1 })).loadPlane c wty f t

/-- The weights of a step of MMA, CONV or WINO: the active plane under KEEP, whose tile must have the size of the weight type, else the
next tile (R179). (DEDUCED, log entry 162.) -/
def State.stepPlane (s : State) (c : Nat) (b : KBits) (wty step : Nat) : PlaneTake × State :=
  if wtOf b = 0 then
    match (s.core c).plane with
    | some p =>
      if p.wty = wty then (.plane p (some p.tileId), s)
      else if p.words.length ≠ tileSize wty then (.badTile, s)
      else
        let (q, s) := s.undefPlane wty
        (.plane q (some p.tileId), s)
    | none =>
      let (p, s) := s.undefPlane wty
      (.plane p none, s)
  else s.nextTile c wty (wtOf b == 2 && step == 0) (fun w => w)

/-- The weights of a step of DWCONV: tap block tap0 + step of its one tile, which KEEP finds as the tile most recently taken
(R179, R184). -/
def State.stepDiag (s : State) (c : Nat) (b : KBits) (step : Nat) : PlaneTake × State :=
  let f := fun w => expandDiag w (2 ^ b.f 16 14) (b.f 13 8 + step)
  if wtOf b ≠ 0 ∧ step = 0 then s.nextTile c 0 (wtOf b == 2) f
  else
    match (s.core c).tiles.find? (fun t => some t.id == (s.core c).lastTaken && !t.released) with
    | some t => if t.words.length ≠ 1024 then (.badTile, s) else s.loadPlane c 0 f t
    | none =>
      let (p, s) := s.undefPlane 0
      (.plane p none, s.updCore c (fun k => { k with plane := some p }))

/-! ### Steps (R181 to R184, R250, R251, R253) -/

/-- A sum over the first `n` numbers. -/
def sumTo (n : Nat) (f : Nat → Int) : Int := ((List.range n).map f).sum

/-- Writes a step's sums: position p and output channel o go to row p, or to the two rows of R174 with I4 weights. -/
def State.putStep (s : State) (c row : Nat) (m : MatOp) (add : Bool) (f : Nat → Nat → Int) (p : Bool) : State :=
  (List.range m.e).foldl (fun s i =>
    if m.wty = 1 then (s.putRow c (row + 2 * i) add (fun o => f i o) p).putRow c (row + 2 * i + 1) add (fun o => f i (64 + o)) p
    else s.putRow c (row + i) add (fun o => f i o) p) s

/-- One step of MMA, CONV or DWCONV: the sum over the input channels of weight × activation, read at column
p × sx + step × dil (R181, R182, R184). -/
def convStep (c : Nat) (b : KBits) (m : MatOp) (sx dil : Nat) (frame : List (List (List Int))) (pl : Plane) (step : Nat)
    (p : Bool) (s : State) : State :=
  s.putStep c b.trow m (b.tadd || decide (0 < step))
    (fun i o => sumTo m.d.e2 (fun ch => tileWeight m.wty pl.words ch o * frameAt frame 0 ch (i * sx + step * dil))) p

/-- Entry (i, j) of B^T, the Winograd input transform (R253). -/
def winoB (i j : Nat) : Int := (([[1, 0, -1, 0], [0, 1, 1, 0], [0, -1, 1, 0], [0, 1, 0, -1]] : List (List Int)).getD i []).getD j 0

/-- Entry (i, j) of A^T, the Winograd output transform (R253). -/
def winoA (i j : Nat) : Int := (([[1, 1, 1, 0], [0, 1, -1, -1]] : List (List Int)).getD i []).getD j 0

/-- U(ξ, η) of channel `ch` and output tile `n`: the entry of B^T d B (R253). -/
def winoU (frame : List (List (List Int))) (ch n xi eta : Nat) : Int :=
  sumTo 4 (fun r => sumTo 4 (fun k => winoB xi r * frameAt frame r ch (2 * n + k) * winoB eta k))

/-- One step of WINO: step 4ξ + η adds its sum over channels, weighted by A^T, into the four output rows (R183, R253). -/
def winoStep (c : Nat) (b : KBits) (m : MatOp) (frame : List (List (List Int))) (pl : Plane) (step : Nat) (p : Bool)
    (s : State) : State :=
  let xi := step / 4
  let eta := step % 4
  (List.range (m.e / 2)).foldl (fun s n =>
    (List.range 4).foldl (fun s ab =>
      let a := ab / 2
      let bb := ab % 2
      let coef := winoA a xi * winoA bb eta
      if coef = 0 then s
      else s.putRow c (b.trow + a * m.e + 2 * n + bb) true
        (fun o => coef * sumTo m.d.e2 (fun ch => tileWeight 2 pl.words ch o * winoU frame ch n xi eta)) p) s) s

/-! ### Issue and run -/

/-- Ends a matrix instruction: every row it wrote carries the poison of all it read (R175), and its bank is free (R172). -/
def matEnd (c : Nat) (e : EngId) (m : MatOp) (p : Bool) (s : State) : State :=
  ((s.freeBank c).updCore c (fun k => { k with matRun := none, accPoison := m.rows.foldl (fun a r => a.put r p) k.accPoison })).retire e

/-- Runs the steps that are left; `wait` leaves the instruction under way until the tile of its step has arrived (R180). -/
def matSteps (op : BitVec 8) (take : State → Nat → PlaneTake × State) (last : Nat → Bool)
    (compute : List (List (List Int)) → Plane → Nat → Bool → State → State) (c : Nat) (e : EngId) (b : KBits) (m : MatOp)
    (frame : List (List (List Int))) : Nat → Nat → Bool → State → State
  | 0, _, p, s => matEnd c e m p s
  | left + 1, step, p, s =>
    match take s step with
    | (.wait, s) => (s.updCore c (fun k => { k with matRun := some { frame := frame, poison := p, step := step } })).block e op b
    | (.badTile, s) => descFault e s
    | (.plane pl id, s) =>
      let p := p || pl.poison
      let s := compute frame pl step p s
      let s := match id with
        | some t => if relOf b && last step then s.releaseTile c t else s
        | none => s
      matSteps op take last compute c e b m frame left (step + 1) p s

/-- What a matrix instruction finds as it begins its steps, kept for a withdrawal (R107). -/
def Core.before (k : Core) : Undo :=
  { tiles := k.tiles, loadPtr := k.loadPtr, lastTaken := k.lastTaken, plane := k.plane, shadow := k.shadow, acc := k.acc
    accPoison := k.accPoison }

/-- A matrix instruction: its checks and frame when it issues (R166 to R173, R179), then its steps.
(DEDUCED, log entry 166.) -/
def matBody (op : BitVec 8) (plan : Engine → KBits → MatOp) (take : KBits → Nat → State → Nat → PlaneTake × State)
    (last : MatOp → Nat → Bool)
    (compute : Nat → KBits → MatOp → List (List (List Int)) → Plane → Nat → Bool → State → State)
    (prepare : Nat → KBits → MatOp → State → State) : EngId → KBits → State → State :=
  onExec (fun c e b s =>
    let m := plan (s.eng e) b
    let k := s.core c
    let run := fun frame left step p s => matSteps op (take b c) (last m) (compute c b m) c e b m frame left step p s
    match k.matRun with
    | some r => run r.frame (m.steps - r.step) r.step r.poison s
    | none =>
      if !m.d.inputOk then descFault e s
      else if m.d.over k.limits then shapeOver c e s
      else if m.d.e0 = 0 ∨ m.d.e2 = 0 then s.retire e
      else if !(m.d.frameOk && m.d.bankOk m.frameRows && m.ok) || (m.wty == 1 && b.trow % 2 == 1) then descFault e s
      else if wtOf b ≠ 0 && !relOf b && !k.tilesFit (wtOf b == 2) m.wty m.tiles then descFault e s
      else
        match s.takeFrame c b.tq m.frameRows m.d with
        | (.badEntry, s) => descFault e s
        | (.wait, s) => s.block e op b
        | (.frame f p, s) =>
          let p := p || (b.tadd && s.anyPoison c m.rows)
          run f m.steps 0 p (prepare c b m (s.updCore c (fun k => { k with undo := some k.before }))))

/-- No rows are prepared before the first step. -/
def noPrepare (_c : Nat) (_b : KBits) (_m : MatOp) (s : State) : State := s

/-- The fields all matrix instructions check, whatever the guard (R131, R178). (DESIGN CHOICE, log entry 159.) -/
def taFields (b : KBits) : Bool :=
  b.z 7 0 && decide (1 ≤ b.tq ∧ b.f 32 31 ≤ 1 ∧ wtOf b ≤ 2 ∧ wtyOf b ≤ 2)

/-- MMA (R181). -/
def runMma : EngId → KBits → State → State :=
  runInstr execOnly (fun b => taFields b && b.z 25 8)
    (matBody 0x80 mmaPlan (fun b c s step => s.stepPlane c b (wtyOf b) step) (fun _ _ => true)
      (fun c b m => convStep c b m 1 1) noPrepare)

/-- MMA (R181). -/
def execMma (e : EngId) (b : KBits) (s : State) : Host.Outcome State Fault Refusal := done (runMma e b s)

/-- CONV (R182). -/
def runConv : EngId → KBits → State → State :=
  runInstr execOnly (fun b => taFields b && b.z 16 8 && decide (b.f 25 22 ≤ 8) && !(wtOf b == 0 && b.f 25 22 != 0))
    (matBody 0x81 convPlan (fun b c s step => s.stepPlane c b (wtyOf b) step) (fun _ _ => true)
      (fun c b m => convStep c b m (b.f 21 20 + 1) (b.f 19 17 + 1)) noPrepare)

/-- CONV (R182). -/
def execConv (e : EngId) (b : KBits) (s : State) : Host.Outcome State Fault Refusal := done (runConv e b s)

/-- WINO (R183): with acc = 0 its rows start at zero. -/
def runWino : EngId → KBits → State → State :=
  runInstr execOnly (fun b => taFields b && b.z 25 8 && decide (b.tq ≤ 4) && wtOf b != 0 && wtyOf b == 2)
    (matBody 0x82 winoPlan (fun b c s step => s.stepPlane c b 2 step) (fun _ _ => true)
      (fun c b m => winoStep c b m)
      (fun c b m s => if b.tadd then s else m.rows.foldl (fun s r => s.putRow c r false (fun _ => 0) false) s))

/-- WINO (R183). -/
def execWino (e : EngId) (b : KBits) (s : State) : Host.Outcome State Fault Refusal := done (runWino e b s)

/-- DWCONV (R184): its tile is released after the last step. -/
def runDwconv : EngId → KBits → State → State :=
  runInstr execOnly (fun b => taFields b && decide (b.f 25 22 ≤ 8 ∧ b.f 16 14 ≤ 5) && wtyOf b == 0)
    (matBody 0x83 dwPlan (fun b c s step => s.stepDiag c b step) (fun m step => step + 1 == m.steps)
      (fun c b m => convStep c b m (b.f 21 20 + 1) (b.f 19 17 + 1)) noPrepare)

/-- DWCONV (R184). -/
def execDwconv (e : EngId) (b : KBits) (s : State) : Host.Outcome State Fault Refusal := done (runDwconv e b s)

end Sys2Proof.Machine
end

