-- ==== Sys2Proof/Machine/Vector.lean ====
section
/-! DEFINITION. Vector, statistics, rotation and detection instructions: POOL and UPS (R185, R186), ELEM (R187, R188), STAT
(R193), ROT (R194, R260), BOXD (R195) and NMS (R196). -/

namespace Sys2Proof.Machine

/-! ### Pooling and upsampling (R185, R186, R252) -/

/-- Writes position rows of K channels: replacing, with zeros in the columns above K, or combining by `f`, which leaves those
columns as they are (R185, R186). -/
def State.putChannels (s : State) (c r k : Nat) (combine : Bool) (f : Int → Int → Int) (v : Nat → Int) (p : Bool) : State :=
  s.setAcc c r ((List.range 64).map (fun i =>
    if combine then (if i < k then wordOf (sat32 (f (s.accAt c r i) (v i))) else (s.accRow c r).getD i 0)
    else if i < k then wordOf (sat32 (v i)) else 0)) p

/-- An instruction of format TP: its descriptor checks, its frame, then its rows (R166 to R173, R175). -/
def tpBody (op : BitVec 8) (posOf : Desc → KBits → Nat) (ok : Desc → KBits → Bool)
    (combine : KBits → Int → Int → Int) (val : Desc → KBits → List (List (List Int)) → Nat → Nat → Int) :
    EngId → KBits → State → State :=
  onExec (fun c e b s =>
    let d := Desc.of ((s.eng e).rdesc (b.f 46 42))
    let k := s.core c
    let n := posOf d b
    if !d.inputOk then descFault e s
    else if d.over k.limits then shapeOver c e s
    else if d.e0 = 0 ∨ d.e2 = 0 then s.retire e
    else if !(d.frameOk && ok d b) then descFault e s
    else
      match s.takeFrame c b.tq 1 d with
      | (.badEntry, s) => descFault e s
      | (.wait, s) => s.block e op b
      | (.frame f p, s) =>
        let rows := (List.range n).map (fun i => (b.trow + i) % 512)
        let p := p || (b.tadd && s.anyPoison c rows)
        ((List.range n).foldl (fun s i =>
          s.putChannels c (b.trow + i) d.e2 b.tadd (combine b) (fun ch => val d b f i ch) p) (s.freeBank c)).retire e)

/-- POOL's output positions (R185). -/
def poolE (d : Desc) (b : KBits) : Nat := convE d (b.f 29 26 + 1) (b.f 25 24 + 1) 1

/-- The largest of a list of numbers. -/
def maxOf (l : List Int) : Int := l.foldl (fun m v => if m < v then v else m) (l.headD 0)

/-- POOL (R185). -/
def runPool : EngId → KBits → State → State :=
  runInstr execOnly (fun b => b.z 23 0 && decide (1 ≤ b.tq ∧ b.f 32 31 ≤ 1 ∧ b.f 29 26 ≤ 8))
    (tpBody 0x88 poolE (fun d b => decide (1 ≤ poolE d b))
      (fun b x y => if b.f 30 30 = 0 then (if x < y then y else x) else x + y)
      (fun _ b f i ch =>
        let taps := (List.range (b.f 29 26 + 1)).map (fun t => frameAt f 0 ch (i * (b.f 25 24 + 1) + t))
        if b.f 30 30 = 0 then maxOf taps else taps.sum))

/-- POOL (R185). -/
def execPool (e : EngId) (b : KBits) (s : State) : Host.Outcome State Fault Refusal := done (runPool e b s)

/-- UPS's factor (R177, R186). -/
def upsF (b : KBits) : Nat := if b.f 24 24 = 0 then 2 else 4

/-- The bilinear weights of UPS for the columns before, at and after x (R186). -/
def upsWeights (f j : Nat) : Int × Int × Int :=
  match f, j with
  | 2, 0 => (1, 3, 0)
  | 2, _ => (0, 3, 1)
  | _, 0 => (3, 5, 0)
  | _, 1 => (1, 7, 0)
  | _, 2 => (0, 7, 1)
  | _, _ => (0, 5, 3)

/-- UPS (R186). -/
def runUps : EngId → KBits → State → State :=
  runInstr execOnly (fun b => b.z 23 0 && b.z 25 25 && decide (1 ≤ b.tq ∧ b.f 32 31 ≤ 1 ∧ b.f 29 26 ≤ 8))
    (tpBody 0x89 (fun d b => upsF b * d.e0)
      (fun d b => decide (upsF b * d.e0 ≤ 512 ∧ (b.f 30 30 = 0 ∨ (1 ≤ d.pl ∧ 1 ≤ d.pr))))
      (fun _ x y => x + y)
      (fun d b f i ch =>
        let x := d.pl + i / upsF b
        let at_ (n : Nat) : Int := frameAt f 0 ch n
        let v : Int := if b.f 30 30 = 0 then at_ x else
          let (l, m, r) := upsWeights (upsF b) (i % upsF b)
          l * at_ (x - 1) + m * at_ x + r * at_ (x + 1)
        (b.f 29 26 : Int) * v))

/-- UPS (R186). -/
def execUps (e : EngId) (b : KBits) (s : State) : Host.Outcome State Fault Refusal := done (runUps e b s)

/-! ### ELEM (R187, R188) -/

/-- A binary32 operation on operands of type `ty`: BF16 operands are widened and the result rounded (R188). -/
def fOp (ty : Nat) (f : Word → Word → Word) (a b : Word) : Word :=
  if ty = 2 then fToBf (f (bfToF a) (bfToF b)) else f a b

/-- An operation of all types: on I32 exact and then saturated, else in binary32 (R187, R188). -/
def allTypes (i : Int → Int → Int) (f : Word → Word → Word) (ty : Nat) (a b : Word) : Word :=
  if ty = 0 then wordOf (sat32 (i a.toInt b.toInt)) else fOp ty f a b

/-- A scalar operand of type `ty`: Sb, or its bits [15:0] for BF16 (R188). -/
def scalarOf (ty : Nat) (v : Word) : Word := if ty = 2 then v &&& 0xFFFF else v

/-- An ELEM operation: the types it lists, whether rb must be zero, whether it uses b, and how it makes a row from rows a and
b (R187). -/
structure ElemOp where
  types : List Nat
  rbZero : Bool
  usesB : Bool
  row : Nat → List Word → List Word → List Word

/-- An operation column by column. -/
def columns (f : Nat → Word → Word → Word) (ty : Nat) (a b : List Word) : List Word :=
  (List.range 64).map (fun i => f ty (a.getD i 0) (b.getD i 0))

/-- An operation that folds the columns of row a into every column. -/
def across (f : Nat → List Word → Word) (ty : Nat) (a _b : List Word) : List Word := List.replicate 64 (f ty a)

/-- The rows of an ELEM: each row's sources are read before its result is written; `p` gathers the poison read (R175, R187).
(DEDUCED, log entry 202.) -/
def elemRows (c : Nat) (o : ElemOp) (ty rd ra : Nat) (rowB : State → Nat → List Word × Bool) (n : Nat) (s : State) : State × Bool :=
  (List.range n).foldl (fun (acc : State × Bool) i =>
    let s := acc.1
    let (vb, pb) := rowB s i
    let p := acc.2 || s.accPoison c (ra + i) || pb
    (s.setAcc c (rd + i) (o.row ty (s.accRow c (ra + i)) vb) p, p)) (s, false)

/-- Marks `n` rows from `r` on with a poison bit (R175). (DEDUCED, log entry 161.) -/
def State.markRows (s : State) (c r n : Nat) (p : Bool) : State :=
  s.updCore c (fun k => { k with accPoison := (List.range n).foldl (fun a i => a.put ((r + i) % 512) p) k.accPoison })

/-- ELEM on its operands (R187): at most 512 rows. (DEDUCED, log entry 160.) -/
def elemBody (o : ElemOp) : EngId → KBits → State → State :=
  onExec (fun c e b s =>
    let x := s.eng e
    let n := Nat.min (x.rs (b.f 14 10)).toNat 512
    let ty := b.f 44 43
    let scalar := List.replicate 64 (scalarOf ty (x.rs (b.f 20 16)))
    let rowB (s : State) (i : Nat) : List Word × Bool :=
      if !o.usesB then ([], false)
      else if b.f 15 15 = 1 then (scalar, false)
      else (s.accRow c (b.f 24 16 + i), s.accPoison c (b.f 24 16 + i))
    let (s, p) := elemRows c o ty (b.f 42 34) (b.f 33 25) rowB n s
    (s.markRows c (b.f 42 34) n p).retire e)

/-- ELEM with an operation (R177, R178, R187): the types it lists, rb zero where b is not used, and [24:21] zero for a scalar. -/
def runElem (o : ElemOp) : EngId → KBits → State → State :=
  runInstr execOnly (fun b => b.z 9 0 && o.types.contains (b.f 44 43) && (!o.rbZero || b.z 24 16) &&
    !(b.f 15 15 == 1 && !b.z 24 21)) (elemBody o)

/-- All three types. -/
def allTy : List Nat := [0, 1, 2]

/-- ADD: a + b (R187). -/
def elemAdd : ElemOp := ⟨allTy, false, true, columns (allTypes (fun a b => a + b) fAdd)⟩
/-- ELEM ADD (R187). -/
def execElemAdd (e : EngId) (b : KBits) (s : State) : Host.Outcome State Fault Refusal := done (runElem elemAdd e b s)

/-- SUB: a − b (R187). -/
def elemSub : ElemOp := ⟨allTy, false, true, columns (allTypes (fun a b => a - b) fSub)⟩
/-- ELEM SUB (R187). -/
def execElemSub (e : EngId) (b : KBits) (s : State) : Host.Outcome State Fault Refusal := done (runElem elemSub e b s)

/-- MUL: a × b (R187). -/
def elemMul : ElemOp := ⟨allTy, false, true, columns (allTypes (fun a b => a * b) fMul)⟩
/-- ELEM MUL (R187). -/
def execElemMul (e : EngId) (b : KBits) (s : State) : Host.Outcome State Fault Refusal := done (runElem elemMul e b s)

/-- MIN (R187). -/
def elemMin : ElemOp := ⟨allTy, false, true, columns (allTypes (fun a b => if b < a then b else a) (fPick false))⟩
/-- ELEM MIN (R187). -/
def execElemMin (e : EngId) (b : KBits) (s : State) : Host.Outcome State Fault Refusal := done (runElem elemMin e b s)

/-- MAX (R187). -/
def elemMax : ElemOp := ⟨allTy, false, true, columns (allTypes (fun a b => if a < b then b else a) (fPick true))⟩
/-- ELEM MAX (R187). -/
def execElemMax (e : EngId) (b : KBits) (s : State) : Host.Outcome State Fault Refusal := done (runElem elemMax e b s)

/-- ABS: |a| (R187). -/
def elemAbs : ElemOp := ⟨allTy, true, false, columns (allTypes (fun a _ => if a < 0 then -a else a) (fun a _ => fAbs a))⟩
/-- ELEM ABS (R187). -/
def execElemAbs (e : EngId) (b : KBits) (s : State) : Host.Outcome State Fault Refusal := done (runElem elemAbs e b s)

/-- NEG: −a (R187). -/
def elemNeg : ElemOp := ⟨allTy, true, false, columns (allTypes (fun a _ => -a) (fun a _ => fNeg a))⟩
/-- ELEM NEG (R187). -/
def execElemNeg (e : EngId) (b : KBits) (s : State) : Host.Outcome State Fault Refusal := done (runElem elemNeg e b s)

/-- MOV: a (R187). -/
def elemMov : ElemOp := ⟨allTy, true, false, columns (allTypes (fun a _ => a) (fun a _ => if fIsNaN a then fNaN else a))⟩
/-- ELEM MOV (R187). -/
def execElemMov (e : EngId) (b : KBits) (s : State) : Host.Outcome State Fault Refusal := done (runElem elemMov e b s)

/-- SRAR: a shifted right by b mod 64, rounded (R187). -/
def elemSrar : ElemOp := ⟨[0], false, true, columns (fun _ a b => wordOf (sat32 (roundShift a.toInt (b.toNat % 64))))⟩
/-- ELEM SRAR (R187). -/
def execElemSrar (e : EngId) (b : KBits) (s : State) : Host.Outcome State Fault Refusal := done (runElem elemSrar e b s)

/-- SHL: a × 2^(b mod 64), saturated (R187). -/
def elemShl : ElemOp := ⟨[0], false, true, columns (fun _ a b => wordOf (sat32 (a.toInt * 2 ^ (b.toNat % 64))))⟩
/-- ELEM SHL (R187). -/
def execElemShl (e : EngId) (b : KBits) (s : State) : Host.Outcome State Fault Refusal := done (runElem elemShl e b s)

/-- CVTIF: I32 to FP32 (R187). -/
def elemCvtif : ElemOp := ⟨[0], true, false, columns (fun _ a _ => fOfInt a.toInt)⟩
/-- ELEM CVTIF (R187). -/
def execElemCvtif (e : EngId) (b : KBits) (s : State) : Host.Outcome State Fault Refusal := done (runElem elemCvtif e b s)

/-- CVTFI: FP32 to I32 (R187). -/
def elemCvtfi : ElemOp := ⟨[1], true, false, columns (fun _ a _ => wordOf (fToInt a))⟩
/-- ELEM CVTFI (R187). -/
def execElemCvtfi (e : EngId) (b : KBits) (s : State) : Host.Outcome State Fault Refusal := done (runElem elemCvtfi e b s)

/-- CVTFB: FP32 to BF16 (R187). -/
def elemCvtfb : ElemOp := ⟨[1], true, false, columns (fun _ a _ => fToBf a)⟩
/-- ELEM CVTFB (R187). -/
def execElemCvtfb (e : EngId) (b : KBits) (s : State) : Host.Outcome State Fault Refusal := done (runElem elemCvtfb e b s)

/-- CVTBF: BF16 to FP32 (R187). -/
def elemCvtbf : ElemOp := ⟨[2], true, false, columns (fun _ a _ => bfToF a)⟩
/-- ELEM CVTBF (R187). -/
def execElemCvtbf (e : EngId) (b : KBits) (s : State) : Host.Outcome State Fault Refusal := done (runElem elemCvtbf e b s)

/-- EXP2: 2^a (R187). -/
def elemExp2 : ElemOp := ⟨[1], false, false, columns (fun _ a _ => fExp2 a)⟩
/-- ELEM EXP2 (R187). -/
def execElemExp2 (e : EngId) (b : KBits) (s : State) : Host.Outcome State Fault Refusal := done (runElem elemExp2 e b s)

/-- RCP: 1 / a (R187). -/
def elemRcp : ElemOp := ⟨[1], false, false, columns (fun _ a _ => fRcp a)⟩
/-- ELEM RCP (R187). -/
def execElemRcp (e : EngId) (b : KBits) (s : State) : Host.Outcome State Fault Refusal := done (runElem elemRcp e b s)

/-- RSQRT: 1 / √a (R187). -/
def elemRsqrt : ElemOp := ⟨[1], false, false, columns (fun _ a _ => fRsqrt a)⟩
/-- ELEM RSQRT (R187). -/
def execElemRsqrt (e : EngId) (b : KBits) (s : State) : Host.Outcome State Fault Refusal := done (runElem elemRsqrt e b s)

/-- RMAX: the maximum of the columns (R187). -/
def elemRmax : ElemOp := ⟨allTy, true, false, across (fun ty l =>
  (l.drop 1).foldl (fun m v => allTypes (fun a b => if a < b then b else a) (fPick true) ty m v) (l.headD 0))⟩
/-- ELEM RMAX (R187). -/
def execElemRmax (e : EngId) (b : KBits) (s : State) : Host.Outcome State Fault Refusal := done (runElem elemRmax e b s)

/-- RSUM: the sum of the columns, in I32 exact and then saturated, else in the fixed tree of binary32 sums, whose result is rounded
once to BF16 where that is the type (R187, R188). -/
def elemRsum : ElemOp := ⟨allTy, true, false, across (fun ty l =>
  if ty = 0 then wordOf (sat32 ((l.map (fun w => w.toInt)).sum))
  else if ty = 2 then fToBf (treeSum fAdd (l.map bfToF)) else treeSum fAdd l)⟩
/-- ELEM RSUM (R187). -/
def execElemRsum (e : EngId) (b : KBits) (s : State) : Host.Outcome State Fault Refusal := done (runElem elemRsum e b s)

/-! ### Statistics (R193) -/

/-- The largest magnitude of the 64 columns of a row. -/
def maxAbs (l : List Word) : Nat := (l.map (fun w => w.toInt.natAbs)).foldl Nat.max 0

/-- Writes column `i` of a row; the row's poison bit is set by `p`, and cleared only by a write of every column (R175; DEDUCED, log
entry 27). -/
def State.putColumn (s : State) (c r i : Nat) (v : Word) : State :=
  s.setAcc c r ((s.accRow c r).set i v) (s.accPoison c r)

/-- STAT MAXABS (R193): the largest magnitude of each row goes to its column of the destination, the largest of all to Sd.
(DEDUCED, log entries 27 and 163.) -/
def statMaxBody : EngId → KBits → State → State :=
  onExec (fun c e b s =>
    let x := s.eng e
    let n := (x.rs (b.f 24 20)).toNat
    let ra := b.f 33 25
    let rd := b.f 42 34
    let (s, p, m) := (List.range n).foldl (fun (acc : State × Bool × Nat) i =>
      let s := acc.1
      let m := maxAbs (s.accRow c (ra + i))
      let p := acc.2.1 || s.accPoison c (ra + i)
      let s := s.putColumn c (rd + i / 64) (i % 64) (BitVec.ofNat 32 m)
      (if i % 64 = 63 then s.markRows c (rd + i / 64) 1 false else s, p, Nat.max acc.2.2 m)) (s, false, 0)
    let s := if p then s.markRows c rd ((n + 63) / 64) true else s
    let (g, s) := s.draw
    let out : Word := if p then 0xFFFFFFFF else if n = 0 then Config.freeWord g 0 else BitVec.ofNat 32 m
    (s.updEng e (fun x => x.ws (b.f 47 43) out)).retire e)

/-- STAT MAXABS (R193). -/
def execStatMaxabs (e : EngId) (b : KBits) (s : State) : Host.Outcome State Fault Refusal :=
  done (runInstr execOnly (fun b => b.z 19 0) statMaxBody e b s)

/-- The range of a STAT MSE target (R177, R193). -/
def qtyRange (qty : Nat) : Int × Int := if qty = 0 then (-128, 127) else if qty = 1 then (-8, 7) else (0, 255)

/-- The squared error of converting an element at a shift (R193). -/
def mseErr (qty sh : Nat) (a : Int) : Nat :=
  let q := clampInt (qtyRange qty).1 (qtyRange qty).2 (roundShift a sh)
  let err := a - q * 2 ^ sh
  (err * err).toNat

/-- STAT MSE (R193): the mean squared error of conversion goes to Sd. (DEDUCED, log entry 163.) -/
def statMseBody : EngId → KBits → State → State :=
  onExec (fun c e b s =>
    let x := s.eng e
    let n := (x.rs (b.f 24 20)).toNat
    let ra := b.f 33 25
    let sh := (x.rs (b.f 19 15)).toNat % 64
    let p := (List.range n).any (fun i => s.accPoison c (ra + i))
    let sum := ((List.range n).map (fun i => ((s.accRow c (ra + i)).map (fun w => mseErr (b.f 14 13) sh w.toInt)).sum)).sum
    let (g, s) := s.draw
    let out : Word :=
      if p then 0xFFFFFFFF
      else if n = 0 then Config.freeWord g 0
      else BitVec.ofNat 32 (Nat.min (roundNat sum (64 * n)) 0xFFFFFFFF)
    (s.updEng e (fun x => x.ws (b.f 47 43) out)).retire e)

/-- STAT MSE (R193). -/
def execStatMse (e : EngId) (b : KBits) (s : State) : Host.Outcome State Fault Refusal :=
  done (runInstr execOnly (fun b => b.z 12 0 && decide (b.f 14 13 ≤ 2)) statMseBody e b s)

/-! ### Rotation (R194, R260) -/

/-- Entry (i, j) of the Sylvester Hadamard matrix: −1 to the number of ones in i AND j (R194). -/
def hadamard (i j : Nat) : Int := if popCount (i &&& j) 7 % 2 = 0 then 1 else -1

/-- One block of 64: the row's columns times H, saturated once; the row's poison goes with it (R194, R260). -/
def rotRow (c rd ra : Nat) (s : State) (i : Nat) : State :=
  let src := s.accRow c (ra + i)
  s.setAcc c (rd + i) ((List.range 64).map (fun r => wordOf (sat32 (sumTo 64 (fun j => hadamard r j * (src.getD j 0).toInt)))))
    (s.accPoison c (ra + i))

/-- One block of 128: rows 2r and 2r + 1 together (R194). -/
def rotPair (c rd ra : Nat) (s : State) (i : Nat) : State :=
  let src := s.accRow c (ra + 2 * i) ++ s.accRow c (ra + 2 * i + 1)
  let p := s.accPoison c (ra + 2 * i) || s.accPoison c (ra + 2 * i + 1)
  let out (h : Nat) : List Word := (List.range 64).map (fun r =>
    wordOf (sat32 (sumTo 128 (fun j => hadamard (64 * h + r) j * (src.getD j 0).toInt))))
  (s.setAcc c (rd + 2 * i) (out 0) p).setAcc c (rd + 2 * i + 1) (out 1) p

/-- ROT (R194). (DEDUCED, log entry 161.) -/
def rotBody : EngId → KBits → State → State :=
  onExec (fun c e b s =>
    let n := ((s.eng e).rs (b.f 24 20)).toNat
    let f := if b.f 49 48 = 0 then rotRow else rotPair
    ((List.range n).foldl (f c (b.f 42 34) (b.f 33 25)) s).retire e)

/-- ROT (R194). -/
def execRot (e : EngId) (b : KBits) (s : State) : Host.Outcome State Fault Refusal :=
  done (runInstr execOnly (fun b => b.z 19 0 && b.z 47 43 && decide (b.f 49 48 ≤ 1)) rotBody e b s)

/-! ### Detection (R195, R196) -/

/-- One half, as binary32. -/
def fHalf : Word := 0x3F000000

/-- The four corners of anchor `a`'s box in a row (R195). -/
def boxOf (da : BitVec 256) (lst : Nat) (x y : Nat) (src : List Word) (a : Nat) : List Word :=
  let col (i : Nat) : Word := src.getD (4 * a + i) 0
  let st := fOfInt (2 ^ lst : Nat)
  let wa := fOfInt ((descWord da a).toNat % 65536 : Nat)
  let ha := fOfInt ((descWord da a).toNat / 65536 : Nat)
  let cx := fAdd (fMul (fAdd (fOfInt x) fHalf) st) (fMul (col 0) wa)
  let cy := fAdd (fMul (fAdd (fOfInt y) fHalf) st) (fMul (col 1) ha)
  let w := fMul wa (fExp2 (col 2))
  let h := fMul ha (fExp2 (col 3))
  [fSub cx (fMul w fHalf), fSub cy (fMul h fHalf), fAdd cx (fMul w fHalf), fAdd cy (fMul h fHalf)]

/-- BOXD (R195): boxes in the columns of the anchors, the other columns copied. (DESIGN CHOICE, log entry 164.) -/
def boxdBody : EngId → KBits → State → State :=
  onExec (fun c e b s =>
    let x := s.eng e
    let n := (x.rs (b.f 26 22)).toNat
    let anchors := b.f 11 9 + 1
    let da := x.rdesc (b.f 49 45)
    let rd := b.f 44 36
    let ra := b.f 35 27
    let y := (x.rs (b.f 21 17)).toNat
    let sx := (x.rs (b.f 16 12)).toNat
    let (s, p) := (List.range n).foldl (fun (acc : State × Bool) i =>
      let src := acc.1.accRow c (ra + i)
      let p := acc.2 || acc.1.accPoison c (ra + i)
      let boxes := (List.range anchors).flatMap (boxOf da (b.f 8 6) (sx + i) y src)
      (acc.1.setAcc c (rd + i) (boxes ++ src.drop (4 * anchors)) p, p)) (s, false)
    (s.markRows c rd (Nat.min n 512) p).retire e)

/-- BOXD (R195). -/
def execBoxd (e : EngId) (b : KBits) (s : State) : Host.Outcome State Fault Refusal :=
  done (runInstr execOnly (fun b => b.z 5 0) boxdBody e b s)

/-- The larger of zero and a value (R196). -/
def fPos (v : Word) : Word := fPick true 0 v

/-- The overlap test of two boxes: inter ≤ T × union, each step rounded (R188, R196). -/
def boxKeep (t : Word) (a b : List Word) : Bool :=
  let g (l : List Word) (i : Nat) : Word := l.getD i 0
  let area (l : List Word) : Word := fMul (fPos (fSub (g l 2) (g l 0))) (fPos (fSub (g l 3) (g l 1)))
  let inter := fMul (fPos (fSub (fPick false (g a 2) (g b 2)) (fPick true (g a 0) (g b 0))))
    (fPos (fSub (fPick false (g a 3) (g b 3)) (fPick true (g a 1) (g b 1))))
  let union := fSub (fAdd (area a) (area b)) inter
  !fIsNaN inter && !fIsNaN (fMul t union) && !fLess (fMul t union) inter

/-- Puts a candidate in its place: descending score, the lower row first on ties (R196). -/
def insertCand (v : List Word) : List (List Word) → List (List Word)
  | [] => [v]
  | u :: r => if fLess (u.getD 4 0) (v.getD 4 0) then v :: u :: r else u :: insertCand v r

/-- The candidates in the order NMS visits them; NaN scores are dropped (R196). -/
def candidates (l : List (List Word)) : List (List Word) :=
  (l.filter (fun v => !fIsNaN (v.getD 4 0))).foldl (fun acc v => insertCand v acc) []

/-- The candidates NMS keeps, up to a limit (R196). -/
def nmsKept (limit : Nat) (t : Word) (l : List (List Word)) : List (List Word) :=
  (candidates l).foldl (fun kept v =>
    if (limit ≠ 0 ∧ limit ≤ kept.length) ∨ kept.any (fun u => u.getD 5 0 == v.getD 5 0 && !boxKeep t u v) then kept
    else kept ++ [v]) []

/-- Whether the destination rows of an NMS overlap its source rows modulo 512 (R196). -/
def nmsOverlap (rd ra n m : Nat) : Bool :=
  (List.range m).any (fun i => (List.range n).any (fun j => (rd + i) % 512 == (ra + j) % 512))

/-- NMS (R196). (DESIGN CHOICE, log entry 164.) -/
def nmsBody : EngId → KBits → State → State :=
  onExec (fun c e b s =>
    let x := s.eng e
    let n := (x.rs (b.f 26 22)).toNat
    let limit := (x.rs (b.f 21 17)).toNat
    let rd := b.f 44 36
    let ra := b.f 35 27
    let most := if limit = 0 then n else Nat.min n limit
    if nmsOverlap rd ra (Nat.min n 512) (Nat.min most 512) then descFault e s
    else
      let rows := (List.range n).map (fun i => s.accRow c (ra + i))
      let p := (List.range n).any (fun i => s.accPoison c (ra + i))
      let kept := nmsKept limit (x.rs (b.f 16 12)) rows
      let s := (List.range kept.length).foldl (fun s i => s.setAcc c (rd + i) (kept.getD i []) p) s
      (s.updEng e (fun x => x.ws (b.f 49 45) (BitVec.ofNat 32 kept.length))).retire e)

/-- NMS (R196). -/
def execNms (e : EngId) (b : KBits) (s : State) : Host.Outcome State Fault Refusal :=
  done (runInstr execOnly (fun b => b.z 11 0) nmsBody e b s)

end Sys2Proof.Machine
end

