-- ==== Sys2Proof/Machine/Requant.lean ====
section
/-! DEFINITION. The requantiser and the digest unit: REQ in its four modes (R189 to R191, R255 to R259) and DIGEST (R192). -/

namespace Sys2Proof.Machine

/-- The value range of an output type (R164, R189). -/
def outRange (ty : Nat) : Int × Int :=
  match ty with
  | 0 => (-8, 7)
  | 1 => (-128, 127)
  | 2 => (0, 255)
  | _ => (-(2 ^ 31), 2 ^ 31 - 1)

/-- The accumulator row that position `p` of a REQ reads (R189): single rows, pair-low or pair-high. -/
def reqRow (row lay p : Nat) : Nat := if lay = 0 then (row + p) % 512 else (row + 2 * p + (lay - 1)) % 512

/-- The first global channel of a REQ (R189). -/
def reqBase (lay : Nat) : Nat := if lay = 2 then 64 else 0

/-- Entry `i` of a core's requantiser table: one that no REQ has loaded is zero after a START from READY, and else a free value
(R257; DEDUCED, log entry 20). -/
def Core.entry (k : Core) (i : Nat) : TableEntry :=
  k.table.look i (match k.tableGen with
    | none => {}
    | some g => { b := Config.freeWord g (70000000 + 2 * i), m := Config.freeWord g (70000001 + 2 * i), s := Config.freeNat g i % 64
                  poison := Config.freeBit g (70000000 + i) })

/-- One rescaled output (R255). -/
def rescale (acc bias m : Int) (s : Nat) (zp lo hi : Int) : Int := clampInt lo hi (roundShift ((acc + bias) * m) s + zp)

/-- M_f of the dynamic scales (R258). -/
def dynM (f : Nat) : Int := [65536, 52429, 43691, 37449].getD f 0

/-- Whether scale (e, f) brings a magnitude within Qmax (R258). -/
def dynFits (m : Int) (qmax : Int) (ef : Nat) : Bool := decide (roundShift (m * dynM (ef % 4)) (16 + ef / 4) ≤ qmax)

/-- The smallest scale that fits, as 4e + f (R258); a row of zeros takes 0. -/
def dynScale (m qmax : Int) : Nat := ((List.range 128).find? (dynFits m qmax)).getD 127

/-- What a REQ of modes 0 to 2 computes: the output of each channel and position, the scale byte of each position, and the
poison of each position's row and each channel's table entry. -/
structure ReqOut where
  y : Nat → Nat → Int
  scale : Nat → Nat
  rowPoison : Nat → Bool
  entryPoison : Nat → Bool

/-- The outputs of a REQ (R189, R255, R258). -/
def reqOut (c : Nat) (x : Engine) (b : KBits) (d : Desc) (s : State) : ReqOut :=
  let k := s.core c
  let mode := b.f 32 31
  let lay := b.f 15 14
  let relu := b.f 19 19 == 1
  let rng := outRange d.ty
  let lo := if relu then d.zp else rng.1
  let acc (ch p : Nat) : Int := s.accAt c (reqRow b.trow lay p) ch
  let ent (ch : Nat) : TableEntry := k.entry (reqBase lay + ch)
  let scale (p : Nat) : Nat :=
    dynScale (((List.range d.e2).map (fun ch => ((acc ch p + (ent ch).b.toInt).natAbs : Int))).foldl (fun m v => if m < v then v else m) 0)
      (if d.ty = 1 then 127 else 7)
  { y := fun ch p =>
      if mode = 0 then rescale (acc ch p) 0 (x.rs (b.f 30 26)).toInt ((x.rs (b.f 25 21)).toNat % 64) d.zp lo rng.2
      else if mode = 1 then rescale (acc ch p) (ent ch).b.toInt (ent ch).m.toInt (ent ch).s d.zp lo rng.2
      else
        let ef := scale p
        let q := roundShift ((acc ch p + (ent ch).b.toInt) * dynM (ef % 4)) (16 + ef / 4)
        if relu && decide (q < 0) then 0 else q
    scale := fun p => (scale p) / 4 + 32 * ((scale p) % 4)
    rowPoison := fun p => s.accPoison c (reqRow b.trow lay p)
    entryPoison := fun ch => mode != 0 && (ent ch).poison }

/-- The packed words of channel `ch` in plane-major order (R171, R190). -/
def planeWords (d : Desc) (o : ReqOut) (ch : Nat) : List Word :=
  packWords d.ty ((List.range d.e0).map (fun p => elemRaw d.ty (o.y ch p)))

/-- The output entries of a REQ: plane-major or position-major (R190), with their poison (R175, R189). -/
def reqEntries (b : KBits) (d : Desc) (o : ReqOut) : List QEntry :=
  let positions := List.range d.e0
  let chans := List.range d.e2
  if b.f 20 20 = 0 then
    chans.map (fun ch => { words := planeWords d o ch, poison := positions.any o.rowPoison || o.entryPoison ch })
  else
    (List.range ((d.e0 + 3) / 4)).map (fun g =>
      let ps := positions.filter (fun p => p / 4 == g)
      { words := packWords d.ty (ps.flatMap (fun p => chans.map (fun ch => elemRaw d.ty (o.y ch p))))
        poison := ps.any o.rowPoison || chans.any o.entryPoison })

/-- The scale entry of mode 2 (R258, R259). -/
def scaleEntry (d : Desc) (o : ReqOut) : QEntry :=
  { words := wordsOfBytes ((List.range d.e0).map (fun p => BitVec.ofNat 8 (o.scale p)))
    poison := (List.range d.e0).any o.rowPoison || (List.range d.e2).any o.entryPoison }

/-- The digest of a REQ's output: one CRC for each channel and each group of 16 positions (R191, R265). -/
def reqDigest (x : Engine) (b : KBits) (d : Desc) (o : ReqOut) : BitVec 64 :=
  let sl := (x.rs (b.f 12 8)).toNat
  let sc := (x.rs (b.f 7 3)).toNat
  let bits := typeBits d.ty
  (List.range d.e2).foldl (fun acc ch =>
    let bytes := bytesOfWords (planeWords d o ch)
    (List.range ((d.e0 + 15) / 16)).foldl (fun acc g =>
      let n := Nat.min 16 (d.e0 - 16 * g)
      let seed := BitVec.ofNat 64 (sl * 2 ^ 32 + ((reqBase (b.f 15 14) + ch) % 65536) * 65536 + ((sc + 16 * g) / 16) % 65536)
      acc ^^^ crc64 seed ((bytes.drop (16 * g * bits / 8)).take ((n * bits + 7) / 8))) acc) 0

/-- Pushes outputs into their queues from number `n` on while there is room; answers how many are in (R103, R189).  A queue that an
inbound arming has set inbound takes none (R102). (DEDUCED, log entries 167 and 220.) -/
def State.emit (s : State) (c : Nat) : List (Nat × QEntry) → Nat → Nat × State
  | [], n => (n, s)
  | (q, v) :: r, n =>
    let k := s.core c
    let free := (k.queueEmpty q && !k.armedIn q || !k.queueEmpty q && (k.queue q).outbound) && k.room q v.words.length
    if free then State.emit (s.setCore c (k.push q true v)) c r (n + 1) else (n, s)

/-- The checks of a REQ of modes 0 to 2 on its output descriptor (R189, R190, R191, R258). -/
def reqOk (x : Engine) (b : KBits) (d : Desc) : Bool :=
  decide (d.e2 ≤ 64) &&
  (if b.f 20 20 = 0 then decide (entryWords d.ty d.e0 ≤ 64) else d.e2 == 64 && (d.ty == 1 || d.ty == 2)) &&
  !(b.f 13 13 == 1 && (x.rs (b.f 7 3)).toNat % 16 != 0)

/-- REQ of modes 0 to 2 (R189 to R191): outputs that do not fit wait for room, the digest is added when all are in.
(DEDUCED, log entry 167.) -/
def reqBody : EngId → KBits → State → State :=
  onExec (fun c e b s =>
    let x := s.eng e
    let d := Desc.of (x.rdesc (b.f 46 42))
    let k := s.core c
    if !(d.fieldsOk && (decide (d.ty ≤ 2) || d.ty == 4) && (b.f 32 31 != 2 || decide (d.ty ≤ 1) && d.zp == 0)) then descFault e s
    else if k.emitted = 0 && d.over k.limits then shapeOver c e s
    else if d.e0 = 0 ∨ d.e2 = 0 then s.retire e
    else if !reqOk x b d then descFault e s
    else
      let o := reqOut c x b d s
      let out := (reqEntries b d o).map (fun v => (b.tq, v)) ++ (if b.f 32 31 = 2 then [(b.f 18 16, scaleEntry d o)] else [])
      let (n, s) := s.emit c (out.drop k.emitted) k.emitted
      if n < out.length then (s.updCore c (fun k => { k with emitted := n })).block e 0x98 b
      else
        let p := (List.range d.e0).any o.rowPoison || (List.range d.e2).any o.entryPoison
        let s := s.updCore c (fun k =>
          if b.f 13 13 = 1 then { k with emitted := 0, digest := k.digest ^^^ reqDigest x b d o, digestPoison := k.digestPoison || p }
          else { k with emitted := 0 })
        s.retire e)

/-- The words of entries in order, each with its entry's poison. -/
def entryBits (l : List QEntry) : List (Word × Bool) := l.flatMap (fun e => e.words.map (fun w => (w, e.poison)))

/-- Takes entries of a queue until `n` words are there. -/
def takeWords (n : Nat) : List QEntry → List QEntry → List QEntry × List QEntry
  | [], buf => ([], buf)
  | e :: r, buf => if n ≤ (entryBits buf).length then (e :: r, buf) else takeWords n r (buf ++ [e])

/-- REQ of mode 3: loads the requantiser table from an inbound queue (R189). -/
def reqLoadBody : EngId → KBits → State → State :=
  onExec (fun c e b s =>
    let d := Desc.of ((s.eng e).rdesc (b.f 46 42))
    let k := s.core c
    if !d.fieldsOk then descFault e s
    else if k.loadBuf = [] && d.over k.limits then shapeOver c e s
    else if 128 < d.e2 then descFault e s
    else
      let (rest, taken) := takeWords (3 * d.e2) (k.inbound b.tq) k.loadBuf
      let buf := entryBits taken
      let k' := if (k.queue b.tq).outbound then k else k.setQueue b.tq { k.queue b.tq with entries := rest }
      if buf.length < 3 * d.e2 then (s.setCore c { k' with loadBuf := taken }).block e 0x98 b
      else if buf.length ≠ 3 * d.e2 ∨ (List.range d.e2).any (fun i => decide (64 ≤ (buf.getD (3 * i + 2) (0, false)).1.toNat)) then
        descFault e (s.setCore c k')
      else
        let table := (List.range d.e2).foldl (fun (t : Sparse TableEntry) i =>
          let w (j : Nat) : Word × Bool := buf.getD (3 * i + j) (0, false)
          t.put i { b := (w 0).1, m := (w 1).1, s := (w 2).1.toNat, poison := (w 0).2 || (w 1).2 || (w 2).2 }) k'.table
        (s.setCore c { k' with loadBuf := [], table := table }).retire e)

/-- The fields every REQ checks, whatever the guard (R131, R178), with its mode. -/
def trFields (mode : Nat) (b : KBits) : Bool :=
  b.z 2 0 && decide (1 ≤ b.tq ∧ b.f 15 14 ≤ 2) && !(b.f 13 13 == 1 && b.f 20 20 == 1) && b.f 32 31 == mode &&
    (mode != 2 || !b.z 18 16)

/-- REQ of mode 0, 1 or 2. -/
def runReq (mode : Nat) : EngId → KBits → State → State := runInstr execOnly (trFields mode) reqBody
/-- REQ of mode 3. -/
def runReqLoad : EngId → KBits → State → State := runInstr execOnly (trFields 3) reqLoadBody

/-- REQ mode 0 (R189, R255). -/
def execReqScalar (e : EngId) (b : KBits) (s : State) : Host.Outcome State Fault Refusal := done (runReq 0 e b s)
/-- REQ mode 1 (R189, R255). -/
def execReqTable (e : EngId) (b : KBits) (s : State) : Host.Outcome State Fault Refusal := done (runReq 1 e b s)
/-- REQ mode 2 (R189, R258). -/
def execReqDynamic (e : EngId) (b : KBits) (s : State) : Host.Outcome State Fault Refusal := done (runReq 2 e b s)
/-- REQ mode 3 (R189). -/
def execReqLoad (e : EngId) (b : KBits) (s : State) : Host.Outcome State Fault Refusal := done (runReqLoad e b s)

/-! ### The digest unit (R192, R126) -/

/-- DIGEST CLEAR (R192). -/
def execDigestClear (e : EngId) (b : KBits) (s : State) : Host.Outcome State Fault Refusal :=
  done (runInstr execOnly (fun b => b.z 49 0) (onExec (fun c e _ s =>
    (s.updCore c (fun k => { k with digest := 0, digestPoison := false })).retire e)) e b s)

/-- DIGEST CHECK (R192): a difference, or a poisoned accumulator, raises DIGEST_MISMATCH. -/
def execDigestCheck (e : EngId) (b : KBits) (s : State) : Host.Outcome State Fault Refusal :=
  done (runInstr execOnly (fun b => b.f 49 48 == 1 && b.z 42 0) (onExec (fun c e b s =>
    let d := (s.eng e).rdesc (b.f 47 43)
    let k := s.core c
    let s := if k.digestPoison || k.digest != d.extractLsb' 0 64 then
        s.raise { code := 0x0A, cls := 0, unit := c, d0 := BitVec.ofNat 32 (s.eng e).pc }
      else s
    s.retire e)) e b s)

/-- A read of DIGEST_LO: the accumulator's low half, its high half captured into DIGEST_HI (R126, R267). -/
def State.readDigestLo (s : State) (c : Nat) : Word × State :=
  let d := (s.core c).digest
  (d.extractLsb' 0 32, s.setFld F.DIGEST_HI_VALUE (d.toNat / 2 ^ 32) c)

/-- DIGEST_LO_READ (R126). -/
def execDigestLoRead (c : Fin 32) (s : State) : Host.Outcome State Fault Refusal :=
  done (let (v, s) := s.readDigestLo c
    { s with readData := v })

end Sys2Proof.Machine
end

