-- ==== Sys2Proof/Machine/CoreCmd.lean ====
section
/-! DEFINITION. Requests to cores (R105 to R111, R126), writes of a core's configuration, and the pocket load port (R159 to
R162). -/

namespace Sys2Proof.Machine

/-! ### Requests (R106 to R109, R111, R122) -/

/-- A WITHDRAW request: a RUNNING or HALTED core first acts as on STOP; then the core is WITHDRAWN and its CORE_EN bit clear
(R106, R111); it ends an audit (R484). -/
def State.withdrawCore (s : State) (c : Nat) : State :=
  let s := s.endAudit c
  if (s.core c).state = 5 then s
  else (((s.stopCore c).emptyCore c).updCore c (fun k => { k with state := 5 })).clrBit F.CORE_EN_EN c |>.noteVlow

/-- A RESTORE request: IDLE, with the CORE_EN bit set and CORE_BIND.VALID clear (R106). -/
def State.restoreCore (s : State) (c : Nat) : State :=
  if (s.core c).state = 5 then
    ((s.updCore c (fun k => { k with state := 0 })).setBit F.CORE_EN_EN c).setFld F.CORE_BIND_VALID 0 c |>.noteVlow
  else s

/-- A rejected configuration write changes nothing but CORE_EVT.CFG_REJECT (R110). -/
def State.cfgReject (s : State) (c : Nat) : State := s.setBit F.CORE_EVT_CFG_REJECT 0 c

/-- A START request of software: rejected while the core is under audit (R106, R484). -/
def State.askStart (s : State) (c : Nat) : State := if s.underAudit c then s.cfgReject c else s.startCore c

/-- A write of CORE_CTRL: the requests of its bits in the order STOP, HALT, CHAIN_CUT, WITHDRAW, RESTORE, START (R109). -/
def State.writeCoreCtrl (s : State) (c : Nat) (v : Word) : State :=
  let s := if v.getLsbD 2 then s.stopCore c else s
  let s := if v.getLsbD 1 then s.haltCore c else s
  let s := if v.getLsbD 5 then s.cutChain c else s
  let s := if v.getLsbD 3 then s.withdrawCore c else s
  let s := if v.getLsbD 4 then s.restoreCore c else s
  if v.getLsbD 0 then s.askStart c else s

/-- CORE_START (R106). -/
def execCoreStart (c : Fin 32) (s : State) : Host.Outcome State Fault Refusal := done (s.askStart c)

/-- CORE_HALT (R107). -/
def execCoreHalt (c : Fin 32) (s : State) : Host.Outcome State Fault Refusal := done (s.haltCore c)

/-- CORE_STOP (R108). -/
def execCoreStop (c : Fin 32) (s : State) : Host.Outcome State Fault Refusal := done (s.stopCore c)

/-- CORE_WITHDRAW (R106, R111). -/
def execCoreWithdraw (c : Fin 32) (s : State) : Host.Outcome State Fault Refusal := done (s.withdrawCore c)

/-- CHAIN_CUT (R122). -/
def execChainCut (c : Fin 32) (s : State) : Host.Outcome State Fault Refusal := done (s.cutChain c)

/-- CORE_RESTORE (R106). -/
def execCoreRestore (c : Fin 32) (s : State) : Host.Outcome State Fault Refusal := done (s.restoreCore c)

/-! ### Configuration (R106, R110) -/

/-- A write of CORE_BIND (R106, R110, R126): with VALID = 1 the shape limits are unset (R518) and an IDLE core becomes READY; with
VALID = 0 a READY, HALTED or FAULTED core becomes IDLE. -/
def State.writeCoreBind (s : State) (c : Nat) (v : Word) : State :=
  if !s.configurable c || s.underAudit c || (v.getLsbD 15 && decide (10239 < v.toNat % 2 ^ 14)) then s.cfgReject c
  else
    let s := s.plainWrite .CORE_BIND v c
    let st := (s.core c).state
    if v.getLsbD 15 then
      let s := s.updCore c (fun k => { k with limits := none })
      if st = 0 then (s.emptyCore c).updCore c (fun k => { k with state := 1 }) else s
    else if st = 1 ∨ st = 3 ∨ st = 4 then (s.emptyCore c).updCore c (fun k => { k with state := 0 })
    else s

/-- CORE_BIND_SET (R106). -/
def execCoreBindSet (c : Fin 32) (value : Word) (s : State) : Host.Outcome State Fault Refusal := done (s.writeCoreBind c value)

/-- CORE_BIND_CLEAR (R106). -/
def execCoreBindClear (c : Fin 32) (value : Word) (s : State) : Host.Outcome State Fault Refusal := done (s.writeCoreBind c value)

/-- A write of QPRI or CHAIN_CFG (R110, R126). -/
def State.writeCoreCfg (s : State) (c : Nat) (chainCfg : Bool) (v : Word) : State :=
  if !s.configurable c then s.cfgReject c
  else if chainCfg then (s.plainWrite .CHAIN_CFG v c).purgeTiles c
  else s.plainWrite .QPRI v c

/-- CORE_CONFIG_WRITE (R110). -/
def execCoreConfigWrite (c : Fin 32) (chainCfg : Bool) (value : Word) (s : State) : Host.Outcome State Fault Refusal :=
  done (s.writeCoreCfg c chainCfg value)

/-! ### The pocket load port (R159 to R162) -/

/-- Whether the pocket load port takes writes (R161). -/
def State.pktOpen (s : State) (c : Nat) : Bool := s.configurable c && !s.bit F.PKT_STATUS_BUSY c

/-- A write the pocket load port ignores (R161). -/
def State.pktReject (s : State) (c : Nat) : State := (s.setBit F.PKT_STATUS_REJECT 0 c).cfgReject c

/-- The eight bytes of an instruction, little-endian (R160). -/
def bytes64 (v : BitVec 64) : List Byte := bytesOfWords [v.extractLsb' 0 32, v.extractLsb' 32 32]

/-- The instruction in a core's pocket: one nothing has written since a warm reset is a free value (R455), else zero.
(DESIGN CHOICE, log entry 15.) -/
def Core.pocketAt (k : Core) (i : Nat) : BitVec 64 :=
  k.pocket.look i (match k.pocketGen with
    | some g => Config.freeWord g (2 * i + 1) ++ Config.freeWord g (2 * i)
    | none => 0)

/-- Writes an instruction at INDEX, and advances INDEX and PKT_CRC (R160). -/
def State.pktPut (s : State) (c : Nat) (v : BitVec 64) : State :=
  let i := s.fld F.PKT_INDEX_INDEX c
  let s := s.updCore c (fun k => { k with pocket := k.pocket.put i v })
  (s.addWrap F.PKT_INDEX_INDEX 1 c).wr .PKT_CRC (crc32cRun (s.rd .PKT_CRC c) (bytes64 v)) c

/-- A write of PKT_INDEX (R160, R161). -/
def State.writePktIndex (s : State) (c : Nat) (v : Word) : State :=
  if s.pktOpen c then (s.plainWrite .PKT_INDEX v c).wr .PKT_CRC 0xFFFFFFFF c else s.pktReject c

/-- A write of PKT_DATA_HI (R160, R161). -/
def State.writePktHi (s : State) (c : Nat) (v : Word) : State :=
  if s.pktOpen c then s.pktPut c (v ++ (s.core c).pktLow) else s.pktReject c

/-- Ends a load: DONE, and ERR where it stopped early; BUSY and GO clear (R160, R162). -/
def State.pktEnd (s : State) (c : Nat) (err : Bool) : State :=
  let s := ((s.setFld F.PKT_STATUS_BUSY 0 c).setFld F.PKT_LOAD_GO 0 c).setBit F.PKT_STATUS_DONE 0 c
  let s := s.updCore c (fun k => { k with load := none })
  if err then s.setBit F.PKT_STATUS_ERR 0 c else s

/-- Whether the loader takes a source: 8-byte aligned and wholly in the weight store or the activation store (R162). -/
def pktSourceOk (a count : Nat) : Bool := decide (a % 8 = 0) && inStores (fun i => i == 0 || i == 1) a (8 * count)

/-- A write of PKT_LOAD (R160 to R162): GO starts the loader, or ends at once with ERR on a bad count or source.
(DEDUCED, log entry 173.) -/
def State.writePktLoad (s : State) (c : Nat) (v : Word) : State :=
  if !v.getLsbD 31 then s.plainWrite .PKT_LOAD v c
  else if s.underAudit c then s.cfgReject c
  else if !s.pktOpen c then s.pktReject c
  else
    let s := s.plainWrite .PKT_LOAD (v &&& 0x3FFF) c
    let n := s.fld F.PKT_LOAD_COUNT c
    let a := s.fld F.PKT_SRC_LO_ADDR c * 4 + s.fld F.PKT_SRC_HI_ADDR c * 2 ^ 32
    if n = 0 ∨ 8192 < n ∨ !pktSourceOk a n then s.pktEnd c true
    else ((s.setBit F.PKT_LOAD_GO 0 c).setBit F.PKT_STATUS_BUSY 0 c).updCore c (fun k => { k with load := some (a, n) })

/-- Copies `n` instructions from `a` into the pocket, until a poisoned or unserved word stops the copy (R162); answers whether
it was stopped. (DEDUCED, log entry 173.) -/
def State.pktCopy (s : State) (c : Nat) (a : Nat) : Nat → Bool × State
  | 0 => (false, s)
  | n + 1 =>
    if !s.storeOk a 2 then (true, s)
    else
      let ((ws, p), s) := (s.turnFor (.core c) a).getWords c a 2
      if p then (true, s)
      else State.pktCopy (s.pktPut c (ws.getD 1 0 ++ ws.getD 0 0)) c (a + 8) n

/-- POCKET_INDEX_WRITE (R160). -/
def execPocketIndexWrite (c : Fin 32) (value : Word) (s : State) : Host.Outcome State Fault Refusal := done (s.writePktIndex c value)

/-- POCKET_WRITE (R160): the write of PKT_DATA_HI, which commits. (DESIGN CHOICE, log entry 197.) -/
def execPocketWrite (c : Fin 32) (value : Word) (s : State) : Host.Outcome State Fault Refusal := done (s.writePktHi c value)

/-- POCKET_LOAD (R162). -/
def execPocketLoad (c : Fin 32) (value : Word) (s : State) : Host.Outcome State Fault Refusal := done (s.writePktLoad c value)

/-- POCKET_LOAD_DONE: the loader has copied its instructions (R162), not before the stores are zeroed (R88). -/
def execPocketLoadDone (c : Fin 32) (s : State) : Host.Outcome State Fault Refusal :=
  done (match (s.core c).load with
    | none => s
    | some (a, n) =>
      if !s.opens a then s
      else
        let (err, s) := s.pktCopy c a n
        s.pktEnd c err)

end Sys2Proof.Machine
end

