-- ==== Sys2Proof/Machine/Stores.lean ====
section
/-! DEFINITION. The stores beside their accesses: scrubbing (R87), power-on zeroing (R88), retention bands (R90 to R93), and
the counters (R96). -/

namespace Sys2Proof.Machine

/-! ### Zeroing (R88, R92) -/

/-- Writes every word of a range to zero, poison clear and check bits valid; its pages lose the verified bit (R88, R92,
R278). -/
def State.zeroRange (s : State) (lo n : Nat) : State :=
  let out (a : Nat) : Bool := decide (a < lo ∨ lo + n ≤ a)
  { s with
    mem := s.mem.filter (fun c => out c.1)
    poison := s.poison.filter (fun c => out c.1)
    flips := s.flips.filter (fun c => out c.1)
    verified := s.verified.filter (fun c => out (4096 * c.1)) }

/-- STORE_INIT_DONE: the power-on zeroing of every store is complete (R88). -/
def execStoreInitDone (s : State) : Host.Outcome State Fault Refusal :=
  done (if s.bit F.STO_STATUS_INIT_DONE then s
    else ((List.range 5).foldl (fun s i => s.zeroRange (storeBase i) (storeSize i)) s).setBit F.STO_STATUS_INIT_DONE)

/-! ### The scrubber (R87) -/

/-- Rows of one band of a store (R89). -/
def bandRows (store : Nat) : Nat := rowsOf store / 8

/-- The first row at or above `r` that lies in an ACTIVE band; none where there is none. -/
def State.scrubFrom (s : State) (store r : Nat) : Option Nat :=
  if rowsOf store ≤ r then none
  else
    let bands := (List.range 8).filter (fun b => r / bandRows store ≤ b && s.bandState store b == 0)
    bands.head?.map (fun b => max r (b * bandRows store))

/-- The passes an octet's scrubber has completed and the row it reads next. -/
def State.scrubAt (s : State) (store octet : Nat) : Nat × Nat :=
  let n := s.stores.scrubRow.look (watchKey store octet) 0
  (n / 16384, n % 16384)

/-- The passes every octet of a store has completed. (DESIGN CHOICE, log entry 183.) -/
def State.scrubPasses (s : State) (store : Nat) : Nat :=
  (List.range (octets store)).foldl (fun m o => min m (s.scrubAt store o).1) (s.scrubAt store 0).1

/-- Reads a word for the scrubber, correcting or poisoning what it finds (R84, R85); no watch moves, though it poisons the word of
one (R87). -/
def State.scrubWord (s : State) (a : Nat) : State :=
  let t := (s.getWord 0xFF a).2
  { t with stores := { t.stores with watches := s.stores.watches, results := s.stores.results } }

/-- Reads a block of 64 words for the scrubber (R87). -/
def State.scrubBlock (s : State) (store octet row : Nat) : State :=
  (List.range 64).foldl (fun s i => s.scrubWord (storeBase store + (row * octets store + octet) * 256 + 4 * i)) s

/-- Whether INTERVAL steps of the wheel have passed since an octet's last scrub read; values below 64 act as 64 (R87, R96). -/
def State.scrubDue (s : State) (store octet : Nat) : Bool :=
  match s.stores.scrubStep.find? (fun c => c.1 == watchKey store octet) with
  | some c => decide (c.2 + max 64 (s.fld F.STO_SCRUB_CFG_INTERVAL) ≤ s.stores.wheel.look store 0)
  | none => true

/-- A scrub read of the next row of an ACTIVE band in one octet; the store counts a pass when its last octet wraps (R87). -/
def State.scrub (s : State) (store octet : Nat) : State :=
  if octets store ≤ octet || !(s.fld F.STO_CTRL_SCRUB_EN).testBit store || !s.bit F.STO_STATUS_INIT_DONE || !s.scrubDue store octet then s
  else
    let (pass, r) := s.scrubAt store octet
    let go (pass row : Nat) : State :=
      let before := s.scrubPasses store
      let s := { s with stores := { s.stores with
          scrubRow := s.stores.scrubRow.put (watchKey store octet) (pass * 16384 + row + 1)
          scrubStep := s.stores.scrubStep.put (watchKey store octet) (s.stores.wheel.look store 0) } }
      let s := s.addWrap F.STO_SCRUB_PASS_COUNT (s.scrubPasses store - before) store
      s.scrubBlock store octet row
    match s.scrubFrom store r with
    | some row => go pass row
    | none => match s.scrubFrom store 0 with
      | some row => go (pass + 1) row
      | none => s

/-- SCRUB_READ (R87). (DESIGN CHOICE, log entry 183.) -/
def execScrubRead (store : Fin 5) (octet : Fin 96) (s : State) : Host.Outcome State Fault Refusal := done (s.scrub store octet)

/-! ### Bands (R90 to R93) -/

/-- Whether a source port is enabled (R93). -/
def State.outputOn (s : State) : Bool := s.bit F.SRC_CTRL_EN 0 || s.bit F.SRC_CTRL_EN 1

/-- The state a band is to have: its request, 3 acting as ACTIVE (R90); ACTIVE in the colour-volume and display stores while a
source port is enabled (R93). -/
def State.bandTarget (s : State) (store band : Nat) : Nat :=
  let r := (s.fld F.STO_BAND_REQ store / 4 ^ band) % 4
  if r = 3 ∨ (3 ≤ store ∧ s.outputOn) then 0 else r

/-- Sets the state in force of a band. -/
def State.setBand (s : State) (store band st : Nat) : State :=
  let v := s.fld F.STO_BAND_STATE store
  s.setFld F.STO_BAND_STATE (v - (v / 4 ^ band % 4) * 4 ^ band + st * 4 ^ band) store

/-- Begins the transition of every band of a store whose state is not its target and that has none in progress (R91, R92).
(DEDUCED, log entry 174.) -/
def State.startBands (s : State) (store : Nat) : State :=
  (List.range 8).foldl (fun s b =>
    let t := s.bandTarget store b
    if s.bandState store b = t ∨ s.stores.bandMoves.has (store * 8 + b) then s
    else
      { s with stores := { s.stores with bandMoves := s.stores.bandMoves.put (store * 8 + b) t } }.setBit F.STO_STATUS_BAND_BUSY store) s

/-- A write of STO_BAND (R90). -/
def State.writeBand (s : State) (store : Nat) (v : Word) : State := (s.plainWrite .STO_BAND v store).startBands store

/-- BAND_REQUEST (R90). -/
def execBandRequest (store : Fin 5) (value : Word) (s : State) : Host.Outcome State Fault Refusal := done (s.writeBand store value)

/-- Releases every watch parked on a word of a range with the poison flag (R80, R91). (DEDUCED, log entry 174.) -/
def State.releaseWatches (s : State) (lo n : Nat) : State :=
  let hit (w : Watch) : Bool := decide (lo ≤ w.addr ∧ w.addr < lo + n)
  let out := s.stores.watches.flatMap (fun c => (c.2.filter hit).map (fun w =>
    (w.e, ({ old := s.rawWord w.addr, flag := false, poison := true } : OpResult))))
  { s with stores := { s.stores with
      watches := s.stores.watches.map (fun c => (c.1, c.2.filter (fun w => !hit w)))
      results := s.stores.results ++ out } }

/-- The engines that retry a blocking operation whose watch list was full (R78). -/
def State.retrying (s : State) : List EngId :=
  let full (x : Engine) : Bool := match x.wait with
    | .listFull _ _ => true
    | _ => false
  (s.cores.filter (fun k => full k.2.fetch)).map (fun k => .fetch (Fin.ofNat 32 k.1)) ++
    (s.keepers.filter (fun k => full k.2.eng)).map (fun k => .keeper (Fin.ofNat 4 k.1))

/-- The word an engine's retry goes to. -/
def State.retryAddr (s : State) (e : EngId) : Option Nat :=
  match (s.eng e).wait with
  | .listFull op b => some (s.watchAddr e op b)
  | _ => none

/-- The access a stream of a core presents to the words of which `hit` holds is performed, with what it completes. -/
def State.performPresented (s : State) (hit : Nat → Bool) (c k : Nat) : State :=
  if !s.streamsRun c then s
  else match s.presented c k with
    | some (a, x) => match x.addr with
      | some y => if hit y then ((s.turnFor (.core c) y).perform c k a x).settle c k else s
      | none => s
    | none => s

/-- Completes the accesses to a band that wait at a port: those that streams present, those at the system port or in the fabric
bridge, and the retries of R78, whose watches are then parked and released with the band's others (R91).
(DEDUCED, log entry 218.) -/
def State.completeWaiting (s : State) (store band : Nat) : State :=
  let hit (a : Nat) : Bool := storeOf a == some store && bandOf store a == band
  let s := s.cores.foldl (fun s x => x.2.streams.foldl (fun s y => s.performPresented hit x.1 y.1) s) s
  let s := if store = 4 then s.drainBridge
    else (List.range (s.stores.slots.length + s.stores.waits.length)).foldl (fun s _ =>
      if s.stores.slots.any (fun r => hit r.2.addr) then s.serveSys store else s) s
  let (lo, n) := (storeBase store + band * (storeSize store / 8), storeSize store / 8)
  (List.range 5).foldl (fun s _ =>
    (s.retrying.foldl (fun s e => if (s.retryAddr e).any hit then s.retryWatch e else s) s).releaseWatches lo n) s

/-- The change of one band from its state to `t`: leaving ACTIVE completes the accesses that wait and releases its watches (R91); entering OFF clears the verified
bits of its pages (R278); leaving OFF zeroes every word (R92). -/
def State.moveBand (s : State) (store band t : Nat) : State :=
  let n := storeSize store / 8
  let lo := storeBase store + band * n
  let old := s.bandState store band
  let s := if old = 0 ∧ t ≠ 0 then s.completeWaiting store band else s
  let s := if t = 2 then { s with verified := s.verified.filter (fun c => decide (4096 * c.1 < lo ∨ lo + n ≤ 4096 * c.1)) } else s
  let s := if old = 2 ∧ t ≠ 2 then s.zeroRange lo n else s
  s.setBand store band t

/-- A band transition completes; BAND_BUSY clears with the store's last one, and a request written meanwhile takes effect
(R91, R92). -/
def State.finishBand (s : State) (store band : Nat) : State :=
  if !s.stores.bandMoves.has (store * 8 + band) then s
  else
    let t := s.stores.bandMoves.look (store * 8 + band) 0
    let s := { s with stores := { s.stores with bandMoves := s.stores.bandMoves.del (store * 8 + band) } }
    let s := (s.moveBand store band t).setBit F.STO_EVT_BAND_DONE
    let s := if (List.range 8).any (fun b => s.stores.bandMoves.has (store * 8 + b)) then s else s.clrBit F.STO_STATUS_BAND_BUSY store
    s.startBands store

/-- BAND_TRANSITION_DONE (R91, R92). -/
def execBandTransitionDone (store : Fin 5) (band : Fin 8) (s : State) : Host.Outcome State Fault Refusal :=
  done (s.finishBand store band)

/-! ### Counters (R96) -/

/-- Zeroes the error, pass and watch counters of every store (R96). -/
def State.clearStoCounters (s : State) : State :=
  (List.range 5).foldl (fun s i =>
    (((s.wr .STO_ECC_CORR 0 i).wr .STO_ECC_UNC 0 i).wr .STO_SCRUB_PASS 0 i).wr .STO_WATCH 0 i) s

/-- STO_COUNTER_CLEAR (R96). -/
def execStoCounterClear (s : State) : Host.Outcome State Fault Refusal := done s.clearStoCounters

/-- A write of STO_CTRL (R96). -/
def State.writeStoCtrl (s : State) (v : Word) : State :=
  let s := s.plainWrite .STO_CTRL v
  if v.getLsbD 8 then s.clearStoCounters else s

end Sys2Proof.Machine
end

