-- ==== Sys2Proof/Machine/Fabric.lean ====
section
/-! DEFINITION. Speed monitors (R41, R42), the belay (R43 to R51), stripe rebalancing (R53 to R55), the actions of R56 and
R57, calibration commands (R58 to R60), and the AVS block (R64). -/

namespace Sys2Proof.Machine

/-! ### Intervals -/

/-- Whether `d` ns have passed since an instant; true where there was none. -/
def State.passed (s : State) (t : Option Nat) (d : Nat) : Bool :=
  match t with
  | none => true
  | some t => decide (d ≤ s.elapsed t)

/-- The raise interval, ns: values below 20 µs act as 20 µs (R45). -/
def State.raiseInt (s : State) : Nat := 1000 * max 20 (s.fld F.BELAY_TIME_RAISE_INT)

/-- The lower interval, ns: 0 acts as 1 µs (R46, R62). -/
def State.lowerInt (s : State) : Nat := 1000 * max 1 (s.fld F.BELAY_TIME_LOWER_INT)

/-- The lowering hold, ns: units of 10 µs (R46, R62). -/
def State.lowerHold (s : State) : Nat := 10000 * s.fld F.BELAY_TIME_LOWER_HOLD

/-! ### The AVSBus controller (R49 to R51, R64) -/

/-- Whether the belay may command the rail (R49, R50, R51, R501). -/
def State.belayCommands (s : State) : Bool :=
  s.bit F.FAB_CTRL_BELAY_EN && s.bit F.AVS_CTRL_EN && s.bit F.AVS_CTRL_MODE && !s.bit F.BELAY_EVT_AVS_FAULT

/-- Whether no AVSBus command or read-back is outstanding (R45, R64). -/
def State.avsFree (s : State) : Bool := s.fab.cmd.isNone && !s.fab.readback

/-- Issues a rail command: by hand (0), a raise (1) or a lowering (2) (R45, R46, R64). -/
def State.issueRail (s : State) (mv kind : Nat) : State :=
  let c : RailCmd := { sel := s.fld F.AVS_CTRL_RAIL_SEL, mv := mv, kind := kind, attempts := 1, at_ := s.time, before := s.fab.lastRaise }
  let s := if kind = 1 then s.addSat F.RAISE_COUNT_COUNT else if kind = 2 then s.addSat F.LOWER_COUNT_COUNT else s
  let s := { s with fab := { s.fab with
      rail := some mv, lastCmd := some s.time, cmd := some c
      lastRaise := if kind = 1 then some s.time else s.fab.lastRaise } }
  (s.setFld F.BELAY_STATE_RAIL mv).setFld F.AVS_STATUS_BUSY 1

/-- What follows the end of a transaction: a manual target that waits is issued, else a read-back that is due begins (R64). -/
def State.avsNext (s : State) : State :=
  if !s.avsFree then s
  else match s.fab.deferred with
    | some mv => { s with fab := { s.fab with deferred := none } }.issueRail mv 0
    | none => if s.fab.readPend then { s with fab := { s.fab with readPend := false, readback := true } } else s

/-- A write of AVS_TARGET: in manual mode it commands the voltage, held to 550 to 850 mV, or leaves it for the end of the
outstanding transaction (R49, R64, R501). -/
def State.writeAvsTarget (s : State) (v : Word) : State :=
  let s := s.plainWrite .AVS_TARGET v
  if !s.bit F.AVS_CTRL_EN || s.bit F.AVS_CTRL_MODE then s
  else
    let mv := max 550 (min 850 (s.fld F.AVS_TARGET_MV))
    if s.avsFree then s.issueRail mv 0 else { s with fab := { s.fab with deferred := some mv } }

/-- AVS_TARGET_WRITE (R49, R64). -/
def execAvsTargetWrite (value : Word) (s : State) : Host.Outcome State Fault Refusal := done (s.writeAvsTarget value)

/-- A rail command is accepted (R51, R64). (DEDUCED, log entry 175.) -/
def State.avsAccept (s : State) (c : RailCmd) : State :=
  let s := { s with fab := { s.fab with cmd := none, accepted := some c.mv } }
  (s.setFld F.AVS_STATUS_CMD c.mv).setFld F.AVS_STATUS_BUSY 0

/-- An attempt of a rail command fails: it is repeated up to three times; after the fourth AVS_FAULT is set and the command
counts as never issued (R51). (DEDUCED, log entry 175.) -/
def State.avsFail (s : State) (c : RailCmd) : State :=
  if c.attempts < 4 then
    { s with fab := { s.fab with cmd := some { c with attempts := c.attempts + 1, at_ := s.time } } }.addSat F.AVS_ERRCNT_RETRIES
  else
    let s := (s.addSat F.AVS_ERRCNT_FAILURES).setBit F.BELAY_EVT_AVS_FAULT
    let s := if c.kind = 1 then s.setFld F.RAISE_COUNT_COUNT (s.fld F.RAISE_COUNT_COUNT - 1)
      else if c.kind = 2 then s.setFld F.LOWER_COUNT_COUNT (s.fld F.LOWER_COUNT_COUNT - 1) else s
    let s := { s with fab := { s.fab with
        cmd := none, rail := s.fab.accepted, lastCmd := some c.at_
        lastRaise := if c.kind = 1 then c.before else s.fab.lastRaise } }
    (s.setFld F.BELAY_STATE_RAIL (s.fab.accepted.getD 0)).setFld F.AVS_STATUS_BUSY 0

/-- The status bits of a response (R64). -/
def avsStatus : AvsReply → Option (BitVec 2)
  | .ok st => some st
  | .readback st _ _ => some st
  | .failed st => st

/-- AVS_RESPONSE: the end of the outstanding transaction (R51, R64). -/
def execAvsResponse (r : AvsReply) (s : State) : Host.Outcome State Fault Refusal :=
  done (if s.avsFree then s
    else
      let s := match avsStatus r with
        | some st => s.setFld F.AVS_STATUS_LAST_STAT st.toNat
        | none => s
      let s := match s.fab.cmd with
        | some c => match r with
          | .failed _ => s.avsFail c
          | _ => s.avsAccept c
        | none =>
          let s := { s with fab := { s.fab with readback := false } }
          match r with
          | .readback _ vout iout => (s.setFld F.AVS_READ_VOUT vout.toNat).setFld F.AVS_READ_IOUT iout.toNat
          | _ => s
      s.avsNext)

/-- Whether a read-back is due: INTERVAL µs after the last fell due, never with INTERVAL 0 (R64). -/
def State.pollDue (s : State) : Bool :=
  s.bit F.AVS_CTRL_EN && s.fld F.AVS_POLL_INTERVAL != 0 && decide (1000 * s.fld F.AVS_POLL_INTERVAL ≤ s.elapsed s.fab.lastPoll)

/-- AVS_READBACK: the poll interval elapses; a read-back begins, or waits for the outstanding transaction (R64).
(DESIGN CHOICE, log entry 180.) -/
def execAvsReadback (s : State) : Host.Outcome State Fault Refusal :=
  done (if s.pollDue then ({ s with fab := { s.fab with readPend := true, lastPoll := s.time } } : State).avsNext else s)

/-- AVS_FAULT_CLEAR: a write of BELAY_EVT (R51, R62). -/
def execAvsFaultClear (value : Word) (s : State) : Host.Outcome State Fault Refusal := done (s.plainWrite .BELAY_EVT value)

/-! ### PMBus (R64) -/

/-- The PMBus clock in kHz; 3 acts as 0 (R64). -/
def State.pmbSpeed (s : State) : Nat := [100, 400, 1000].getD (s.fld F.PMB_CTRL_SPEED) 100

/-- A write of PMB_XFER: START begins a transaction where the controller is active and none runs (R64).
(DESIGN CHOICE, log entry 179.) -/
def State.writePmb (s : State) (v : Word) : State :=
  let s := s.plainWrite .PMB_XFER (v &&& 0x7FFFFFFF)
  if !v.getLsbD 31 || s.bit F.PMB_STATUS_BUSY || !s.bit F.PMB_CTRL_EN then s
  else
    let p : PmbXfer :=
      { addr := s.fld F.PMB_XFER_ADDR, cmd := s.fld F.PMB_XFER_CMD, read := s.bit F.PMB_XFER_READ, len := min 4 (s.fld F.PMB_XFER_LEN)
        data := s.rd .PMB_DATA, speed := s.pmbSpeed, pec := s.bit F.PMB_CTRL_PEC }
    let s := { s with fab := { s.fab with pmb := some p } }
    (s.setFld F.PMB_XFER_START 1).setFld F.PMB_STATUS_BUSY 1

/-- PMBUS_START (R64). -/
def execPmbusStart (value : Word) (s : State) : Host.Outcome State Fault Refusal := done (s.writePmb value)

/-- PMBUS_DONE: the transaction finishes; a packet error code is checked on a read begun with PEC set; a read that met no error leaves
its bytes in PMB_DATA (R64). -/
def execPmbusDone (nack pecErr arbLost : Bool) (data : Word) (s : State) : Host.Outcome State Fault Refusal :=
  done (match s.fab.pmb with
    | none => s
    | some p =>
      let bad := p.read && p.pec && pecErr
      let s := { s with fab := { s.fab with pmb := none } }
      let s := ((s.setFld F.PMB_STATUS_BUSY 0).setFld F.PMB_XFER_START 0).setFld F.PMB_STATUS_DONE 1
      let s := if nack then s.setFld F.PMB_STATUS_NACK 1 else s
      let s := if bad then s.setFld F.PMB_STATUS_PEC_ERR 1 else s
      let s := if arbLost then s.setFld F.PMB_STATUS_ARB_LOST 1 else s
      if p.read && !(nack || bad || arbLost) then s.wr .PMB_DATA (data &&& BitVec.ofNat 32 (maskOf (8 * p.len))) else s)

/-! ### Rail control (R43 to R48, R56) -/

/-- The window of a stream (R13). -/
def State.windowOf (s : State) (x : Nat) : Nat :=
  match (s.pics.look x {}).plan with
  | some p => p.window
  | none => 4

/-- The effective target of a window (R43). -/
def State.effTarget (s : State) (w : Nat) : Nat := min (s.fld F.BELAY_SLACK_TARGET) (w / 2)

/-- The effective floor of a window (R43). -/
def State.effFloor (s : State) (w : Nat) : Nat := min (s.fld F.BELAY_SLACK_FLOOR) (s.effTarget w)

/-- Raises the rail by 5 mV where R45 allows it, or records AT_MAX at most once per raise interval.
(DEDUCED, log entries 178 and 213.) -/
def State.belayRaise (s : State) : State :=
  let hi := s.railLimits.2
  if s.railNow < hi then
    if s.belayCommands && s.avsFree && s.passed s.fab.lastCmd s.raiseInt then s.issueRail (min (s.railNow + 5) hi).toNat 1 else s
  else if s.passed s.fab.lastCmd s.raiseInt && s.passed s.fab.lastMax s.raiseInt then
    { (s.addSat F.AT_MAX_COUNT_COUNT).setBit F.BELAY_EVT_AT_MAX with fab := { s.fab with lastMax := some s.time } }
  else s

/-- Whether some enabled core is below the floor rate (R47). -/
def State.floorViolated (s : State) : Bool := s.fab.viol.any s.coreOn

/-- Whether the belay wants the rail higher: an active stream's slack below target, the rail below V_low, or a floor violation (R43,
R45, R47). -/
def State.wantsRaise (s : State) : Bool := (s.fab.short && !s.fab.active.isEmpty) || decide (s.railNow < s.railLimits.1) || s.floorViolated

/-- The belay at a decision instant, on the streams that have a line there, each with its slack where it is active (R43, R45,
R46, R50, R56). (DESIGN CHOICE, log entry 212.) -/
def State.belayDecide (s : State) (lines : List (Nat × Option Int)) : State :=
  let slacks : List (Nat × Int) := lines.filterMap (fun p => p.2.map (fun v => (p.1, v)))
  let others := s.fab.active.filter (fun x => !lines.any (fun p => p.1 == x))
  let s := { s with fab := { s.fab with active := others ++ slacks.map (fun p => p.1) } }
  if !s.bit F.FAB_CTRL_BELAY_EN then s
  else
    let target (x : Nat) : Int := (s.effTarget (s.windowOf x) : Nat)
    let floor (x : Nat) : Int := (s.effFloor (s.windowOf x) : Nat)
    let short := slacks.any (fun p => decide (p.2 < target p.1))
    let good := slacks.all (fun p => decide (min (target p.1 + s.fld F.BELAY_SLACK_HYST) (s.windowOf p.1 : Int) ≤ p.2))
    let since := if !good then none else match s.fab.goodSince with
      | none => some s.time
      | some t => some t
    let s' := slacks.foldl (fun (s : State) p =>
      let s := if p.2 < target p.1 then s.setBit F.BELAY_EVT_BELOW_TARGET p.1 else s
      if p.2 < floor p.1 then (s.setBit F.BELAY_EVT_BELOW_FLOOR p.1).setFld F.FAB_STATUS_LOW_INHIBIT 1 else s) s
    let s' := { s' with fab := { s'.fab with short := short, goodSince := since } }
    if s'.wantsRaise then s'.belayRaise else s'

/-- BELAY_LOWER: the rail goes 5 mV lower where every condition of R46 holds. -/
def execBelayLower (s : State) : Host.Outcome State Fault Refusal :=
  let held : Bool := s.fab.active.isEmpty || match s.fab.goodSince with
    | some t => decide (s.lowerHold ≤ s.elapsed t)
    | none => false
  done (if s.belayCommands && s.avsFree && held && !s.wantsRaise && !s.bit F.FAB_STATUS_LOW_INHIBIT &&
      s.passed s.fab.lastCmd s.lowerInt && s.passed s.fab.lastRaise s.lowerHold && decide (s.railLimits.1 ≤ s.railNow - 5) then
      s.issueRail (s.railNow - 5).toNat 2
    else s)

/-- RAIL_BELOW_VLOW_RAISE: the raise that needs no decision instant (R47, R48). -/
def execRailBelowVlowRaise (s : State) : Host.Outcome State Fault Refusal :=
  done (if s.bit F.FAB_CTRL_BELAY_EN && s.wantsRaise then s.belayRaise else s)

/-- A write of FAB_CTRL: a change of BELAY_EN starts the belay's conditions afresh, LOW_INHIBIT held clear while it is clear
(R50). -/
def State.writeFabCtrl (s : State) (v : Word) : State :=
  let old := s.bit F.FAB_CTRL_BELAY_EN
  let s := s.plainWrite .FAB_CTRL v
  if s.bit F.FAB_CTRL_BELAY_EN = old then s
  else { s with fab := { s.fab with short := false, goodSince := none, viol := [] } }.setFld F.FAB_STATUS_LOW_INHIBIT 0

/-! ### Speed monitors and live calibration (R41, R42, R47) -/

/-- The live calibration of a core at the end of a window (R42, R59): the user gain offset moves by one unit towards
agreement; CLAMP_WINDOWS windows held at a limit set MON_DISAGREE. (DESIGN CHOICE, log entry 210.) -/
def State.liveCal (s : State) (c est meas : Nat) : State :=
  let off := decide (meas < 200 * (max est meas - min est meas))
  let up := decide (est < meas)
  let atLimit := s.effGain c == (if up then (s.fld F.CAL_FLIM_G_G_MAX : Int) else (s.fld F.CAL_FLIM_G_G_MIN : Int))
  let run := if off && atLimit then s.fab.clampRun.look c 0 + 1 else 0
  let s := { s with fab := { s.fab with clampRun := s.fab.clampRun.set c 0 run } }
  let s := if run ≠ 0 ∧ s.fld F.MON_CFG_CLAMP_WINDOWS ≤ run then s.setBit F.MON_DISAGREE_DIS c else s
  if off && s.bit F.CAL_CTRL_LIVE_CAL then
    let g := clampInt (-2048) 2047 (s.sfld F.CAL_USER_GOFS c + (if up then 1 else -1))
    (s.setFld F.CAL_USER_GOFS (lowBits 12 g) c).noteClamp c
  else s

/-- FLOOR_VIOLATION of a core at the end of its window (R47, R50). -/
def State.noteFloor (s : State) (c est : Nat) : State :=
  if !s.bit F.FAB_CTRL_BELAY_EN then s
  else if est < 1200 then
    if s.fab.viol.contains c then s
    else if s.railLimits.1 ≤ s.railNow then
      { s with fab := { s.fab with viol := c :: s.fab.viol } }.setBit F.BELAY_EVT_FLOOR_VIOLATION
    else s
  else { s with fab := { s.fab with viol := s.fab.viol.filter (fun d => d != c) } }

/-- MONITOR_WINDOW_END: the counters of R41 advance, CORE_SPEED takes the estimate (R × gain) >> 12 and the measured rate, and
the core is calibrated (R41, R42). (DEDUCED, log entry 178; DESIGN CHOICE, log entry 209.) -/
def execMonitorWindowEnd (c : Fin 32) (transits handshakes blockedNs : Nat) (s : State) : Host.Outcome State Fault Refusal :=
  let s := (s.addWrap F.HS_EXEC_COUNT handshakes c).addWrap F.BLOCK_TIME_NS blockedNs c
  done (if !s.coreOn c || !s.bit F.FAB_CTRL_MON_EN then s
    else
      let window := 1000 * max 10 (s.fld F.MON_CFG_WINDOW)
      let free := window - blockedNs
      let est := min 65535 (transits * (s.effGain c).toNat / 4096)
      let meas := if 4 * free < window then 0 else min 65535 (handshakes * 1000 / free)
      let s := (s.setFld F.CORE_SPEED_EST est c).setFld F.CORE_SPEED_MEAS meas c
      let s := if meas = 0 then s else s.liveCal c est meas
      let s := s.noteFloor c est
      if s.bit F.FAB_CTRL_BELAY_EN && s.floorViolated then s.belayRaise else s)

/-! ### Calibration commands (R58 to R60, R63) -/

/-- A write of CAL_USER (R58, R60). -/
def State.writeCalUser (s : State) (c : Nat) (v : Word) : State := ((s.plainWrite .CAL_USER v c).noteClamp c).noteVlow

/-- CAL_USER_WRITE (R60). -/
def execCalUserWrite (c : Fin 32) (value : Word) (s : State) : Host.Outcome State Fault Refusal := done (s.writeCalUser c value)

/-- Zeroes every CAL_USER register (R63). -/
def State.clearCalUser (s : State) : State := ((List.range 32).foldl (fun s c => (s.wr .CAL_USER 0 c).noteClamp c) s).noteVlow

/-- A write of CAL_CTRL (R63). -/
def State.writeCalCtrl (s : State) (v : Word) : State :=
  let s := s.plainWrite .CAL_CTRL v
  if v.getLsbD 1 then s.clearCalUser else s

/-- USER_CLEAR: a write of CAL_CTRL (R63). -/
def execUserClear (value : Word) (s : State) : Host.Outcome State Fault Refusal := done (s.writeCalCtrl value)

/-- A write of CAL_CLAMP; the bit of a core whose clamp is still active is set again (R58). -/
def State.writeCalClamp (s : State) (v : Word) : State := (List.range 32).foldl State.noteClamp (s.plainWrite .CAL_CLAMP v)

/-- Drives THERMTRIP_N low where a core's reading, corrected by the factory trim alone, is 120 °C or more (R514). -/
def State.noteTrip (s : State) (c : Nat) : State :=
  if 960 ≤ (s.core c).tempReading + s.sfld F.CAL_FGT_TTRIM c then { s with thermTrip := true } else s

/-- A core's sensor reads a new temperature, in 0.125 °C (R44, R514). -/
def State.setTemp (s : State) (c : Nat) (reading : Int) : State :=
  ((s.updCore c (fun k => { k with tempReading := reading })).noteTrip c).noteVlow

/-- JUNCTION_TEMPERATURE_CHANGE (R44). -/
def execJunctionTemperatureChange (c : Fin 32) (reading : Int) (s : State) : Host.Outcome State Fault Refusal :=
  done (s.setTemp c reading)

/-! ### Cumulative counters (R62) -/

/-- A write of CUM_CLEAR (R62). -/
def State.writeCumClear (s : State) (x : Nat) (v : Word) : State :=
  if v.getLsbD 0 then (((s.wr .CUM_FORCED 0 x).wr .CUM_POISONED 0 x).wr .CUM_LATE 0 x).wr .CUM_POLICY 0 x else s

/-- CUM_CLEAR (R62). -/
def execCumClear (x : Fin 2) (value : Word) (s : State) : Host.Outcome State Fault Refusal := done (s.writeCumClear x value)

/-! ### Stripe geometry (R53 to R55) -/

/-- The start and width of a stripe of a stream's geometry in force, in units of 16 columns. -/
def State.stripeAt (s : State) (x k : Nat) : Nat × Nat := (s.fld F.STRIPE_GEOM_START x k, s.fld F.STRIPE_GEOM_WIDTH x k)

/-- The geometry in force of a stream's first `n` stripes. -/
def State.geometry (s : State) (x n : Nat) : List (Nat × Nat) := (List.range n).map (s.stripeAt x)

/-- Writes a geometry; the entries past it become zero. (DEDUCED, log entry 182.) -/
def State.putGeometry (s : State) (r : RegId) (x : Nat) (g : List (Nat × Nat)) : State :=
  (List.range 32).foldl (fun s k =>
    let e := g.getD k (0, 0)
    s.wr r (BitVec.ofNat 32 (e.1 % 512 + (e.2 % 512) * 65536)) x k) s

/-- A rational rounded to the nearest integer, ties to even. -/
def ratRound (q : Rat) : Int := roundDiv q.num q.den

/-- The moves of R53 and R54 at the inner boundaries, in ascending order: `b` holds the boundary columns as updated, `acc` the
sum of v_0 to v_(k-1). -/
def moveBounds (lo hi hyst step left width : Nat) (total : Rat) (kept : List Bool) (v : List Rat) :
    Nat → Nat → Rat → List Int → List Int
  | 0, _, _, b => b
  | n + 1, k, acc, b =>
    let acc := acc + v.getD (k - 1) 0
    let at_ (i : Nat) : Int := b.getD i 0
    let ideal : Rat := (left : Rat) + (width : Rat) * acc / total
    let d : Rat := ideal - ((at_ k : Int) : Rat)
    let far := decide ((hyst : Rat) ≤ d) || decide ((hyst : Rat) ≤ -d)
    let nb := at_ k + clampInt (-(16 * step : Int)) (16 * step) (ratRound (ideal / 16) * 16 - at_ k)
    let ok (w : Int) : Bool := decide ((lo : Int) ≤ w ∧ w ≤ hi ∧ 0 < w)
    let fine := far && !(kept.getD (k - 1) true) && !(kept.getD k true) && ok (nb - at_ (k - 1)) && ok (at_ (k + 1) - nb)
    moveBounds lo hi hyst step left width total kept v n (k + 1) acc (if fine then b.set k nb else b)

/-- The boundaries the belay computes for a stream from the closing frame: `rates` are lines per ns and `kept` says which
stripes keep their boundaries (R53, R54). -/
def State.newGeometry (s : State) (x : Nat) (g : List (Nat × Nat)) (rates : List Rat) (kept : List Bool) : List (Nat × Nat) :=
  let v := (g.zip rates).map (fun p => ((16 * p.1.2 : Nat) : Rat) * p.2)
  let sum := v.foldl (fun a b => a + b) 0
  let total := if sum = 0 then 1 else sum
  let left := 16 * (g.getD 0 (0, 0)).1
  let width := 16 * (g.map (fun e => e.2)).sum
  let b := g.map (fun e => ((16 * e.1 : Nat) : Int)) ++ [((left + width : Nat) : Int)]
  let b := moveBounds (16 * s.fld F.GEOM_LIMIT_MIN_WIDTH x) (16 * s.fld F.GEOM_LIMIT_MAX_WIDTH x) (s.fld F.REBAL_CFG_HYST)
    (s.fld F.REBAL_CFG_MAX_STEPS + 1) left width total kept v (g.length - 1) 1 0 b
  (List.range g.length).map (fun k => ((b.getD k 0 / 16).toNat, ((b.getD (k + 1) 0 - b.getD k 0) / 16).toNat))

/-- Whether a shadow geometry passes the checks of R55. -/
def State.shadowOk (s : State) (x : Nat) (g : List (Nat × Nat)) : Bool :=
  let sh := (List.range 32).map (fun k => (s.fld F.STRIPE_SHADOW_START x k, s.fld F.STRIPE_SHADOW_WIDTH x k))
  let n := g.length
  let last := fun (l : List (Nat × Nat)) => (l.getD (n - 1) (0, 0)).1 + (l.getD (n - 1) (0, 0)).2
  (sh.drop n).all (fun e => e.2 == 0) && decide (n ≠ 0) && (sh.getD 0 (0, 0)).1 == (g.getD 0 (0, 0)).1 && last sh == last g &&
    (List.range (n - 1)).all (fun k => (sh.getD k (0, 0)).1 + (sh.getD k (0, 0)).2 == (sh.getD (k + 1) (0, 0)).1) &&
    (sh.take n).all (fun e => decide (s.fld F.GEOM_LIMIT_MIN_WIDTH x ≤ e.2 ∧ e.2 ≤ s.fld F.GEOM_LIMIT_MAX_WIDTH x))

/-- Marks a stream's shadow as written (R55). -/
def State.writeStripeShadow (s : State) (x k : Nat) (v : Word) : State :=
  let s := s.plainWrite .STRIPE_SHADOW v x k
  if s.fab.shadowNew.contains x then s else { s with fab := { s.fab with shadowNew := x :: s.fab.shadowNew } }

/-- STRIPE_SHADOW_WRITE (R55). -/
def execStripeShadowWrite (x : Fin 2) (stripe : Fin 32) (value : Word) (s : State) : Host.Outcome State Fault Refusal :=
  done (s.writeStripeShadow x stripe value)

/-- The measured rates of the closing frame (R53) go to STRIPE_RATE, and an active stream that no epoch rebound is rebalanced:
the result goes into force, or in keeper mode to STRIPE_PROPOSAL (R53, R54, R55). -/
def State.rebalance (s : State) (x : Nat) (busy : List Nat) : State :=
  let p := s.pics.look x {}
  match p.plan with
  | none => s
  | some plan =>
    let n := plan.skeins.length
    let rate (k : Nat) : Rat := if busy.getD k 0 = 0 then 0 else ((p.complete.look k 0 : Nat) : Rat) / ((busy.getD k 0 : Nat) : Rat)
    let s := (List.range n).foldl (fun s k =>
      s.wr .STRIPE_RATE (BitVec.ofNat 32 (min (2 ^ 32 - 1) ((rate k) * 65536000).floor.toNat)) x k) s
    if !s.bit F.FAB_CTRL_REBAL_EN || !p.active || p.rebound then s
    else
      let kept := (List.range n).map (fun k => rate k == 0 || p.forcedStripes.contains k)
      let g := s.newGeometry x (s.geometry x n) ((List.range n).map rate) kept
      if s.bit F.FAB_CTRL_REBAL_KEEPER then (s.putGeometry .STRIPE_PROPOSAL x g).setBit F.BELAY_EVT_REBAL_DONE x
      else s.putGeometry .STRIPE_GEOM x g

/-- In keeper mode, a shadow written since the last boundary goes into force where it passes its checks (R55).
(DEDUCED, log entry 182.) -/
def State.takeShadow (s : State) (x : Nat) : State :=
  let p := s.pics.look x {}
  let n := match p.plan with
    | some plan => plan.skeins.length
    | none => 0
  let sh := (List.range n).map (fun k => (s.fld F.STRIPE_SHADOW_START x k, s.fld F.STRIPE_SHADOW_WIDTH x k))
  let s' := { s with fab := { s.fab with shadowNew := s.fab.shadowNew.filter (fun y => y != x) } }
  if s.fab.shadowNew.contains x && s.bit F.FAB_CTRL_REBAL_KEEPER && !p.rebound && s.shadowOk x (s.geometry x n) then
    s'.putGeometry .STRIPE_GEOM x sh
  else s'

/-- What the belay concludes from a closing frame, under the configuration that frame had: the active streams, AUDIT_OK and
LOW_INHIBIT (R43, R56, R57). -/
def State.belayClose (s : State) : State :=
  let act := [0, 1].filter (fun x => (s.pics.look x {}).active && (s.pics.look x {}).plan.isSome)
  let s := { s with fab := { s.fab with active := act } }
  let minimum (x : Nat) : Int := match (s.pics.look x {}).minSlack with
    | some m => m.1
    | none => 0
  let ok := act.all (fun x => (s.pics.look x {}).late == 0 && decide ((s.fld F.BELAY_SLACK_AUDIT_SLACK : Int) ≤ minimum x))
  let s := s.setFld F.FAB_STATUS_AUDIT_OK (if ok then 1 else 0)
  if act.all (fun x => decide ((s.effTarget (s.windowOf x) : Int) ≤ minimum x)) then s.setFld F.FAB_STATUS_LOW_INHIBIT 0 else s

/-- The geometry of each stream at a frame boundary: rebalanced from the closing frame, or a keeper's shadow (R53 to R55). -/
def State.belayBoundary (s : State) (busy : List (List Nat)) : State :=
  [0, 1].foldl (fun s x => (s.rebalance x (busy.getD x [])).takeShadow x) s

end Sys2Proof.Machine
end

