-- ==== Sys2Proof/Machine/Bytes.lean ====
section
/-! DEFINITION. Numbers and fields in lists of bytes. -/

namespace Sys2Proof.Machine

/-- The number a list of bytes gives, least significant first. -/
def leNat (l : List Byte) : Nat := l.foldr (fun b n => b.toNat + 256 * n) 0

/-- The number a list of bytes gives, most significant first. -/
def beNat (l : List Byte) : Nat := l.foldl (fun n b => 256 * n + b.toNat) 0

/-- The `n` bytes of a number, most significant first. -/
def beBytes (n v : Nat) : List Byte := (List.range n).map (fun i => BitVec.ofNat 8 (v / 256 ^ (n - 1 - i)))

/-- The `n` bytes of a number, least significant first. -/
def leBytes (n v : Nat) : List Byte := (List.range n).map (fun i => BitVec.ofNat 8 (v / 256 ^ i))

/-- `n` bytes of a list from an offset. -/
def sub (l : List Byte) (ofs n : Nat) : List Byte := (l.drop ofs).take n

/-- The little-endian field of `n` bytes at an offset. -/
def leField (l : List Byte) (ofs n : Nat) : Nat := leNat (sub l ofs n)

/-- The big-endian field of `n` bytes at an offset. -/
def beField (l : List Byte) (ofs n : Nat) : Nat := beNat (sub l ofs n)

/-- Two lists of bytes, byte by byte, under exclusive or. -/
def xorBytes (a b : List Byte) : List Byte := a.zipWith (fun x y => x ^^^ y) b

end Sys2Proof.Machine
end

