-- ==== Sys2Proof/Machine/Hash.lean ====
section
/-! DEFINITION. The hash functions the spec names by their standards: SHA-256 and SHA-384 (FIPS 180-4), HMAC (FIPS 198-1) and HKDF
(RFC 5869). (PRESUMED, log entry 22.) -/

namespace Sys2Proof.Machine

/-- What tells the members of the SHA-2 family apart: the functions Σ0, Σ1, σ0 and σ1, the round constants, and the bytes of a block
and of the length in its padding. -/
structure Sha (w : Nat) where
  bigA : BitVec w → BitVec w
  bigE : BitVec w → BitVec w
  smallA : BitVec w → BitVec w
  smallE : BitVec w → BitVec w
  rounds : List (BitVec w)
  block : Nat
  lenBytes : Nat

/-- The eight working variables. -/
structure ShaState (w : Nat) where
  a : BitVec w
  b : BitVec w
  c : BitVec w
  d : BitVec w
  e : BitVec w
  f : BitVec w
  g : BitVec w
  h : BitVec w

/-- A message with its padding: a one bit, zeros, and the length in bits. -/
def Sha.pad {w : Nat} (h : Sha w) (l : List Byte) : List Byte :=
  let used := l.length + 1 + h.lenBytes
  l ++ [0x80] ++ List.replicate ((h.block - used % h.block) % h.block) 0 ++ beBytes h.lenBytes (8 * l.length)

/-- The message schedule of a block: its 16 words, and as many more as there are rounds. -/
def Sha.schedule {w : Nat} (h : Sha w) (block : List Byte) : List (BitVec w) :=
  let first := (List.range 16).map (fun i => BitVec.ofNat w (beField block (w / 8 * i) (w / 8)))
  ((List.range (h.rounds.length - 16)).foldl (fun (l : List (BitVec w)) _ =>
    (h.smallE (l.getD 1 0) + l.getD 6 0 + h.smallA (l.getD 14 0) + l.getD 15 0) :: l) first.reverse).reverse

/-- One round. -/
def Sha.round {w : Nat} (h : Sha w) (s : ShaState w) (kw : BitVec w × BitVec w) : ShaState w :=
  let ch := (s.e &&& s.f) ^^^ (~~~ s.e &&& s.g)
  let maj := (s.a &&& s.b) ^^^ (s.a &&& s.c) ^^^ (s.b &&& s.c)
  let t := s.h + h.bigE s.e + ch + kw.1 + kw.2
  { a := t + h.bigA s.a + maj, b := s.a, c := s.b, d := s.c, e := s.d + t, f := s.e, g := s.f, h := s.g }

/-- Takes one block into the hash value. -/
def Sha.compress {w : Nat} (h : Sha w) (v : ShaState w) (block : List Byte) : ShaState w :=
  let s := (h.rounds.zip (h.schedule block)).foldl h.round v
  { a := v.a + s.a, b := v.b + s.b, c := v.c + s.c, d := v.d + s.d, e := v.e + s.e, f := v.f + s.f, g := v.g + s.g, h := v.h + s.h }

/-- The hash value of a message from an initial value. -/
def Sha.run {w : Nat} (h : Sha w) (iv : ShaState w) (l : List Byte) : ShaState w :=
  let m := h.pad l
  (List.range (m.length / h.block)).foldl (fun v i => h.compress v (sub m (h.block * i) h.block)) iv

/-- The round constants of SHA-256. -/
def k256 : List (BitVec 32) :=
  [
    0x428a2f98, 0x71374491, 0xb5c0fbcf, 0xe9b5dba5, 0x3956c25b, 0x59f111f1, 0x923f82a4, 0xab1c5ed5, 0xd807aa98, 0x12835b01,
    0x243185be, 0x550c7dc3, 0x72be5d74, 0x80deb1fe, 0x9bdc06a7, 0xc19bf174, 0xe49b69c1, 0xefbe4786, 0x0fc19dc6, 0x240ca1cc,
    0x2de92c6f, 0x4a7484aa, 0x5cb0a9dc, 0x76f988da, 0x983e5152, 0xa831c66d, 0xb00327c8, 0xbf597fc7, 0xc6e00bf3, 0xd5a79147,
    0x06ca6351, 0x14292967] ++ [
    0x27b70a85, 0x2e1b2138, 0x4d2c6dfc, 0x53380d13, 0x650a7354, 0x766a0abb, 0x81c2c92e, 0x92722c85, 0xa2bfe8a1, 0xa81a664b,
    0xc24b8b70, 0xc76c51a3, 0xd192e819, 0xd6990624, 0xf40e3585, 0x106aa070, 0x19a4c116, 0x1e376c08, 0x2748774c, 0x34b0bcb5,
    0x391c0cb3, 0x4ed8aa4a, 0x5b9cca4f, 0x682e6ff3, 0x748f82ee, 0x78a5636f, 0x84c87814, 0x8cc70208, 0x90befffa, 0xa4506ceb,
    0xbef9a3f7, 0xc67178f2]

/-- The round constants of SHA-384. -/
def k384 : List (BitVec 64) :=
  [
    0x428a2f98d728ae22, 0x7137449123ef65cd, 0xb5c0fbcfec4d3b2f, 0xe9b5dba58189dbbc, 0x3956c25bf348b538, 0x59f111f1b605d019,
    0x923f82a4af194f9b, 0xab1c5ed5da6d8118, 0xd807aa98a3030242, 0x12835b0145706fbe, 0x243185be4ee4b28c, 0x550c7dc3d5ffb4e2,
    0x72be5d74f27b896f, 0x80deb1fe3b1696b1, 0x9bdc06a725c71235, 0xc19bf174cf692694, 0xe49b69c19ef14ad2, 0xefbe4786384f25e3,
    0x0fc19dc68b8cd5b5, 0x240ca1cc77ac9c65, 0x2de92c6f592b0275, 0x4a7484aa6ea6e483, 0x5cb0a9dcbd41fbd4, 0x76f988da831153b5,
    0x983e5152ee66dfab, 0xa831c66d2db43210, 0xb00327c898fb213f, 0xbf597fc7beef0ee4, 0xc6e00bf33da88fc2, 0xd5a79147930aa725,
    0x06ca6351e003826f, 0x142929670a0e6e70, 0x27b70a8546d22ffc, 0x2e1b21385c26c926, 0x4d2c6dfc5ac42aed, 0x53380d139d95b3df,
    0x650a73548baf63de, 0x766a0abb3c77b2a8, 0x81c2c92e47edaee6, 0x92722c851482353b] ++ [
    0xa2bfe8a14cf10364, 0xa81a664bbc423001, 0xc24b8b70d0f89791, 0xc76c51a30654be30, 0xd192e819d6ef5218, 0xd69906245565a910,
    0xf40e35855771202a, 0x106aa07032bbd1b8, 0x19a4c116b8d2d0c8, 0x1e376c085141ab53, 0x2748774cdf8eeb99, 0x34b0bcb5e19b48a8,
    0x391c0cb3c5c95a63, 0x4ed8aa4ae3418acb, 0x5b9cca4f7763e373, 0x682e6ff3d6b2b8a3, 0x748f82ee5defb2fc, 0x78a5636f43172f60,
    0x84c87814a1f0ab72, 0x8cc702081a6439ec, 0x90befffa23631e28, 0xa4506cebde82bde9, 0xbef9a3f7b2c67915, 0xc67178f2e372532b,
    0xca273eceea26619c, 0xd186b8c721c0c207, 0xeada7dd6cde0eb1e, 0xf57d4f7fee6ed178, 0x06f067aa72176fba, 0x0a637dc5a2c898a6,
    0x113f9804bef90dae, 0x1b710b35131c471b, 0x28db77f523047d84, 0x32caab7b40c72493, 0x3c9ebe0a15c9bebc, 0x431d67c49c100d4c,
    0x4cc5d4becb3e42b6, 0x597f299cfc657e2a, 0x5fcb6fab3ad6faec, 0x6c44198c4a475817]

/-- SHA-256. -/
def sha256Family : Sha 32 :=
  { bigA := fun x => x.rotateRight 2 ^^^ x.rotateRight 13 ^^^ x.rotateRight 22
    bigE := fun x => x.rotateRight 6 ^^^ x.rotateRight 11 ^^^ x.rotateRight 25
    smallA := fun x => x.rotateRight 7 ^^^ x.rotateRight 18 ^^^ (x >>> 3)
    smallE := fun x => x.rotateRight 17 ^^^ x.rotateRight 19 ^^^ (x >>> 10)
    rounds := k256, block := 64, lenBytes := 8 }

/-- SHA-384. -/
def sha384Family : Sha 64 :=
  { bigA := fun x => x.rotateRight 28 ^^^ x.rotateRight 34 ^^^ x.rotateRight 39
    bigE := fun x => x.rotateRight 14 ^^^ x.rotateRight 18 ^^^ x.rotateRight 41
    smallA := fun x => x.rotateRight 1 ^^^ x.rotateRight 8 ^^^ (x >>> 7)
    smallE := fun x => x.rotateRight 19 ^^^ x.rotateRight 61 ^^^ (x >>> 6)
    rounds := k384, block := 128, lenBytes := 16 }

/-- SHA-256 of a message (FIPS 180-4). -/
def sha256 (l : List Byte) : BitVec 256 :=
  let s := sha256Family.run
    ⟨0x6a09e667, 0xbb67ae85, 0x3c6ef372, 0xa54ff53a, 0x510e527f, 0x9b05688c, 0x1f83d9ab, 0x5be0cd19⟩ l
  s.a ++ s.b ++ s.c ++ s.d ++ s.e ++ s.f ++ s.g ++ s.h

/-- SHA-384 of a message (FIPS 180-4). -/
def sha384 (l : List Byte) : BitVec 384 :=
  let s := sha384Family.run
    ⟨0xcbbb9d5dc1059ed8, 0x629a292a367cd507, 0x9159015a3070dd17, 0x152fecd8f70e5939, 0x67332667ffc00b31,
      0x8eb44a8768581511, 0xdb0c2e0d64f98fa7, 0x47b5481dbefa4fa4⟩ l
  s.a ++ s.b ++ s.c ++ s.d ++ s.e ++ s.f

/-- The 32 bytes of a SHA-256. -/
def sha256Bytes (l : List Byte) : List Byte := beBytes 32 (sha256 l).toNat

/-- The 48 bytes of a SHA-384. -/
def sha384Bytes (l : List Byte) : List Byte := beBytes 48 (sha384 l).toNat

/-- HMAC with SHA-384 of a key and a message (FIPS 198-1). -/
def hmac384 (key l : List Byte) : List Byte :=
  let key := if 128 < key.length then sha384Bytes key else key
  let key := key ++ List.replicate (128 - key.length) 0
  sha384Bytes (key.map (fun b => b ^^^ 0x5C) ++ sha384Bytes (key.map (fun b => b ^^^ 0x36) ++ l))

/-- HKDF with SHA-384 (RFC 5869) for an output of at most 48 bytes: extract, and the first block of expand. -/
def hkdf384 (salt ikm info : List Byte) (n : Nat) : List Byte := (hmac384 (hmac384 salt ikm) (info ++ [1])).take n

end Sys2Proof.Machine
end

