-- ==== Sys2Proof/Machine/Curve.lean ====
section
/-! DEFINITION. The curve P-384 (SP 800-186), ECDSA with SHA-384 (FIPS 186-5) with the nonces of RFC 6979, and ECDH, which the spec names
(R460, R470 to R473). (PRESUMED, log entry 22.) -/

namespace Sys2Proof.Machine

/-- The prime of the field of P-384. -/
def p384 : Nat := 2 ^ 384 - 2 ^ 128 - 2 ^ 96 + 2 ^ 32 - 1

/-- The order n of the group of P-384. -/
def n384 : Nat := 0xFFFFFFFFFFFFFFFFFFFFFFFFFFFFFFFFFFFFFFFFFFFFFFFFC7634D81F4372DDF581A0DB248B0A77AECEC196ACCC52973

/-- The coefficient b of P-384; a is −3. -/
def b384 : Nat := 0xB3312FA7E23EE7E4988E056BE3F82D19181D9C6EFE8141120314088F5013875AC656398D8A2ED19D2A85C8EDD3EC2AEF

/-- A point of the curve; `none` is the neutral one. -/
abbrev Point : Type := Option (Nat × Nat)

/-- The base point G of P-384. -/
def g384 : Point :=
  some (0xAA87CA22BE8B05378EB1C71EF320AD746E1D3B628BA79B9859F741E082542A385502F25DBF55296C3A545E3872760AB7,
    0x3617DE4A96262C6F5D9E98BF9292DC29F8F41DBD289A147CE9DA3113B5F0B8C00A60B1CE1D7E819D7A431D7C90EA0E5F)

/-- A power modulo `m`, for exponents below 2^384. -/
def powMod (m a e : Nat) : Nat :=
  (List.range 384).foldl (fun r i => r * r % m * (if e.testBit (383 - i) then a else 1) % m) 1

/-- The inverse modulo a prime. -/
def invMod (m a : Nat) : Nat := powMod m (a % m) (m - 2)

/-- The difference of two numbers modulo `m`. -/
def subMod (m a b : Nat) : Nat := (a + m - b % m) % m

/-- The point on the line of slope `l` through two points with the given x, and y of the first. -/
def chord (l x y x' : Nat) : Point :=
  let z := subMod p384 (subMod p384 (l * l) x) x'
  some (z, subMod p384 (l * subMod p384 x z) y)

/-- Addition of points. -/
def addPoints : Point → Point → Point
  | none, q => q
  | p, none => p
  | some (x, y), some (x', y') =>
    if x = x' then
      if (y + y') % p384 = 0 then none
      else chord (subMod p384 (3 * x * x) 3 * invMod p384 (2 * y) % p384) x y x'
    else chord (subMod p384 y' y * invMod p384 (subMod p384 x' x) % p384) x y x'

/-- A multiple of a point, below 2^384. -/
def mulPoint (k : Nat) (p : Point) : Point :=
  (List.range 384).foldl (fun r i =>
    let r := addPoints r r
    if k.testBit (383 - i) then addPoints r p else r) none

/-- The point that 96 bytes give, x then y, big-endian, where they are the coordinates of a point of the curve. -/
def pointOf (l : List Byte) : Point :=
  let x := beField l 0 48
  let y := beField l 48 48
  if x < p384 ∧ y < p384 ∧ y * y % p384 = subMod p384 (x * x * x + b384) (3 * x) then some (x, y) else none

/-- The 96 bytes of a point. -/
def pointBytes (p : Point) : List Byte :=
  match p with
  | some (x, y) => beBytes 48 x ++ beBytes 48 y
  | none => List.replicate 96 0

/-- The public key of a private scalar. -/
def publicKey (d : Nat) : List Byte := pointBytes (mulPoint d g384)

/-- ECDSA P-384 verification with SHA-384: key, message, signature (R460).  A key that is no point of the curve verifies
nothing. -/
def ecdsaVerify (key message sig : List Byte) : Bool :=
  let r := beField sig 0 48
  let s := beField sig 48 48
  let e := (sha384 message).toNat
  let w := invMod n384 s
  match pointOf key with
  | none => false
  | some q =>
    decide (1 ≤ r ∧ r < n384 ∧ 1 ≤ s ∧ s < n384) &&
      match addPoints (mulPoint (e * w % n384) g384) (mulPoint (r * w % n384) (some q)) with
      | some (x, _) => x % n384 == r
      | none => false

/-- The signature of a hash value with a private scalar and a nonce, where it is one: r and s are not zero. -/
def signWith (d e k : Nat) : Option (Nat × Nat) :=
  if k = 0 ∨ n384 ≤ k then none
  else match mulPoint k g384 with
    | none => none
    | some (x, _) =>
      let r := x % n384
      let s := invMod n384 k * (e + r * d) % n384
      if r = 0 ∨ s = 0 then none else some (r, s)

/-- The candidates of RFC 6979 in turn, from the generator's key and value, until one gives a signature; `none` after `fuel` of
them. -/
def signLoop (d e : Nat) : Nat → List Byte → List Byte → Option (Nat × Nat)
  | 0, _, _ => none
  | fuel + 1, k, v =>
    let v := hmac384 k v
    match signWith d e (beNat v) with
    | some x => some x
    | none =>
      let k := hmac384 k (v ++ [0])
      signLoop d e fuel k (hmac384 k v)

/-- ECDSA P-384 with SHA-384 and the nonce of RFC 6979: the signature of a message with a private scalar, r then s (R470, R471).
(DEDUCED, log entry 249.) -/
def ecdsaSign (d : Nat) (message : List Byte) : List Byte :=
  let e := (sha384 message).toNat
  let seed := beBytes 48 d ++ beBytes 48 (e % n384)
  let v := List.replicate 48 (1 : Byte)
  let k := hmac384 (List.replicate 48 0) (v ++ [0] ++ seed)
  let v := hmac384 k v
  let k := hmac384 k (v ++ [1] ++ seed)
  match signLoop d e 1000 k (hmac384 k v) with
  | some (r, s) => beBytes 48 r ++ beBytes 48 s
  | none => (List.range 96).map (fun i => Config.freeByte (d * 2 ^ 384 + e) i)

/-- The bytes of ASCII text. -/
def asciiBytes (s : String) : List Byte := s.toList.map (fun c => BitVec.ofNat 8 c.toNat)

/-- The private scalar of the identity key: (OS2IP(SHA-384(ID_SEED ‖ "FV9612 identity")) mod (n − 1)) + 1 (R470). -/
def identityScalar (seed : List Byte) : Nat := (sha384 (seed ++ asciiBytes "FV9612 identity")).toNat % (n384 - 1) + 1

/-- The session key: HKDF-SHA384 with the nonce as salt, the x-coordinate of the ECDH point as input, "FV9612 session" as info
and 32 bytes of output (R473); a free value where the requester's key is no point of the curve, of which the spec states nothing.
(DESIGN CHOICE, log entry 250.) -/
def sessionKey (d : Nat) (peer nonce : List Byte) : BitVec 256 :=
  match pointOf peer with
  | none => Config.freeKey d (beNat peer)
  | some q => match mulPoint d (some q) with
    | none => Config.freeKey d (beNat peer)
    | some (x, _) => BitVec.ofNat 256 (beNat (hkdf384 nonce (beBytes 48 x) (asciiBytes "FV9612 session") 32))

end Sys2Proof.Machine
end

