-- ==== Sys2Proof/Machine/Lms.lean ====
section
/-! DEFINITION. Verification of LMS signatures (RFC 8554, SP 800-208) with LMS_SHA256_M32_H15 and LMOTS_SHA256_N32_W4, the types R460
requires. (PRESUMED, log entry 22.) -/

namespace Sys2Proof.Machine

/-- Digit `i` of four bits, the high one of a byte first. -/
def lmsDigit (l : List Byte) (i : Nat) : Nat :=
  let b := (l.getD (i / 2) 0).toNat
  if i % 2 = 0 then b / 16 else b % 16

/-- A hash with its checksum: the sum of what its 64 digits lack of 15, shifted left by 4, as two bytes. -/
def lmsWithSum (q : List Byte) : List Byte :=
  q ++ beBytes 2 (((List.range 64).map (fun i => 15 - lmsDigit q i)).sum * 16)

/-- The end of hash chain `i` from a signature's element with digit `a`. -/
def lmsChain (id : List Byte) (i a : Nat) (y : List Byte) : List Byte :=
  (List.range (15 - a)).foldl (fun t j => sha256Bytes (id ++ beBytes 2 i ++ [BitVec.ofNat 8 (a + j)] ++ t)) y

/-- The one-time public key a one-time signature gives for a message; `id` is I ‖ q. -/
def lmsOneTime (id sig message : List Byte) : List Byte :=
  let q := lmsWithSum (sha256Bytes (id ++ beBytes 2 0x8181 ++ sub sig 4 32 ++ message))
  let z := (List.range 67).flatMap (fun i => lmsChain id i (lmsDigit q i) (sub sig (36 + 32 * i) 32))
  sha256Bytes (id ++ beBytes 2 0x8080 ++ z)

/-- The root of the tree from leaf node `r` with value `t` along a path of 15 siblings. -/
def lmsRoot (I path : List Byte) (r : Nat) (t : List Byte) : List Byte :=
  (List.range 15).foldl (fun t i =>
    let node := r / 2 ^ i
    let sibling := sub path (32 * i) 32
    sha256Bytes (I ++ beBytes 4 (node / 2) ++ beBytes 2 0x8383 ++ (if node % 2 = 1 then sibling ++ t else t ++ sibling))) t

/-- LMS verification: public key, message, signature of 2,668 bytes; both types are those of R460. -/
def lmsVerify (key message sig : List Byte) : Bool :=
  let I := sub key 8 16
  let q := beField sig 0 4
  let id := I ++ beBytes 4 q
  let r := 2 ^ 15 + q
  let leaf := sha256Bytes (I ++ beBytes 4 r ++ beBytes 2 0x8282 ++ lmsOneTime id (sub sig 4 2180) message)
  beField key 0 4 == 7 && beField key 4 4 == 3 && beField sig 4 4 == 3 && beField sig 2184 4 == 7 && decide (q < 2 ^ 15) &&
    lmsRoot I (sub sig 2188 480) r leaf == sub key 24 32

end Sys2Proof.Machine
end

