-- ==== Sys2Proof/Machine/Container.lean ====
section
/-! DEFINITION. Bytes of memory and of the OTP (R467), and signed containers (R459, R460). -/

namespace Sys2Proof.Machine

/-- The `n` bytes from address `a`. -/
def State.bytesAt (s : State) (a n : Nat) : List Byte := (List.range n).map (fun i => s.byteAt (a + i))

/-! ### The OTP (R467) -/

/-- A byte of the OTP. -/
def State.otpByte (s : State) (o : Nat) : Byte := byteOf (s.boot.otp.look (o / 4) 0) (o % 4)

/-- Bytes of the OTP. (DEDUCED, log entry 133.) -/
def State.otpBytes (s : State) (o n : Nat) : List Byte := (List.range n).map (fun i => s.otpByte (o + i))

/-- The set bits of `n` words of the OTP: a counter's value (R467). -/
def State.otpCount (s : State) (word n : Nat) : Nat :=
  ((List.range n).map (fun i => (List.range 32).countP (fun b => (s.boot.otp.look (word + i) 0).getLsbD b))).sum

/-- The firmware counter, or the knot counter (R467). -/
def State.svnCounter (s : State) (knot : Bool) : Nat := s.otpCount (if knot then 0x280 / 4 else 0x240 / 4) 16

/-- Bit `b` of the OTP word CONFIG (R467). (DESIGN CHOICE, log entry 2.) -/
def State.otpConfig (s : State) (b : Nat) : Bool := (s.boot.otp.look (0x20 / 4) 0).getLsbD b

/-- Bit `b` of the OTP word REVOKE (R467). -/
def State.otpRevoked (s : State) (b : Nat) : Bool := (s.boot.otp.look (0x24 / 4) 0).getLsbD b

/-! ### Containers (R459, R460) -/

/-- Length of a container header. -/
def headerLen : Nat := 4096
/-- PAYLOAD_LEN of a container (R459). -/
def payloadLen (h : List Byte) : Nat := leField h 8 4
/-- SVN of a container. -/
def containerSvn (h : List Byte) : Nat := leField h 0xC 4
/-- GEN of a container. -/
def containerGen (h : List Byte) : Nat := leField h 0x10 4
/-- The ECDSA key slot of a container. -/
def containerKey (h : List Byte) : Nat := leField h 0x14 1
/-- The LMS key slot of a container. -/
def containerLms (h : List Byte) : Nat := leField h 0x15 1

/-- Step 1 of R460: the header fields against R459, for a firmware container or a knot image. (DEDUCED, log entry 30.) -/
def headerFieldsOk (knot : Bool) (h : List Byte) : Bool :=
  leField h 0 4 == 0x4E4F4353 && leField h 4 2 == 1 && leField h 6 2 == (if knot then 2 else 1) &&
    (if knot then payloadLen h % 4096 == 0 && decide (8192 ≤ payloadLen h)
      else decide (512 ≤ payloadLen h ∧ payloadLen h ≤ 4190208)) &&
    decide (containerSvn h ≤ 512) && (if knot then containerGen h == 0 else containerGen h != 0) &&
    decide (containerKey h ≤ 3) && decide (containerLms h ≤ 1)

/-- Steps 1 to 5 of R460: a container's fields, keys, SVN and both signatures; every failure is SIG_FAIL. -/
def State.signedOk (s : State) (knot : Bool) (h : List Byte) : Bool :=
  let k := containerKey h
  let j := containerLms h
  let ecdsa := s.otpBytes (0x40 + 96 * k) 96
  let lms := s.otpBytes (0x1C0 + 56 * j) 56
  let message := h.take 0x80
  let sig := sub h 0x100 2668
  headerFieldsOk knot h &&
    !s.otpRevoked k && !s.otpRevoked (4 + j) && ecdsa.any (fun b => b != 0) && lms.any (fun b => b != 0) &&
    decide (s.svnCounter knot ≤ containerSvn h) &&
    ecdsaVerify ecdsa message (sub h 0x80 96) && lmsVerify lms message sig

/-- Step 6 of R460: the payload's digest. -/
def payloadOk (h payload : List Byte) : Bool := (sha384 payload).toNat == beNat (sub h 0x40 48)

/-- Verifies a container, its payload following its header (R460). (DEDUCED, log entry 30.) -/
def State.containerOk (s : State) (knot : Bool) (h payload : List Byte) : Bool := s.signedOk knot h && payloadOk h payload

end Sys2Proof.Machine
end

