-- ==== Sys2Proof/Machine/Knots.lean ====
section
/-! DEFINITION. The knot table (R268 to R271), the model library and imports (R272, R275 to R277), the verified map, loads and
verifications (R278 to R280). -/

namespace Sys2Proof.Machine

/-! ### The knot table (R268, R269) -/

/-- Word `w` of a knot's entry. -/
def State.kword (s : State) (k w : Nat) : Word := s.kn.table.look (16 * k + w) 0

/-- A field of a knot's entry. -/
def State.kfld (s : State) (k w hi lo : Nat) : Nat := ((s.kword k w).toNat >>> lo) % 2 ^ (hi - lo + 1)

/-- Writes word `w` of a knot's entry. -/
def State.setKword (s : State) (k w : Nat) (v : Word) : State :=
  { s with kn := { s.kn with table := s.kn.table.set (16 * k + w) 0 v } }

/-- STATE of a knot: 0 EMPTY, 1 LIBRARY, 2 LOADING, 3 RESIDENT, 4 VERIFYING. -/
def State.kstate (s : State) (k : Nat) : Nat := s.kfld k 0 2 0
/-- BOUND of a knot. -/
def State.kbound (s : State) (k : Nat) : Nat := s.kfld k 0 15 8

/-- Sets STATE and BOUND of a knot. -/
def State.setKnot (s : State) (k st bound : Nat) : State := s.setKword k 0 (BitVec.ofNat 32 (st + 256 * bound))

/-- Sets STATE of a knot. -/
def State.setKstate (s : State) (k st : Nat) : State := s.setKnot k st (s.kbound k)

/-- First byte of a knot's resident region. -/
def State.kbase (s : State) (k : Nat) : Nat := (s.kword k 2).toNat
/-- Pages of a knot's region. -/
def State.kpages (s : State) (k : Nat) : Nat := s.kfld k 3 14 0

/-- The knots whose entries are not zero. -/
def State.knownKnots (s : State) : List Nat := (s.kn.table.map (fun c => c.1 / 16)).eraseDups

/-- Whether the regions of two knots overlap (R279). -/
def State.overlap (s : State) (j k : Nat) : Bool :=
  decide (s.kbase j < s.kbase k + 4096 * s.kpages k ∧ s.kbase k < s.kbase j + 4096 * s.kpages j)

/-- Whether a knot's weights are verified (R278). -/
def State.knotVerified (s : State) (k : Nat) : Bool :=
  s.kpages k != 0 && (List.range (s.kpages k)).all (fun p => s.verified.look (s.kbase k / 4096 + p) false)

/-- A fault of the library or the knot table, with the knot ID (R271, R276, R280). (DESIGN CHOICE, log entry 41.) -/
def libFault (code k : Nat) : FaultRec := { code := code, cls := 5, unit := 0, d0 := BitVec.ofNat 32 k }

/-- The knot the entry window shows: values above 10239 act as 10239 (R295). -/
def State.windowKnot (s : State) : Nat := min (s.fld F.KNT_SEL_KNOT) 10239

/-- A write of STATE (R270, R271): eviction and removal of an unbound knot; any other changes nothing and raises KNOT_BUSY. -/
def State.writeKnotState (s : State) (v : Word) : State :=
  let k := s.windowKnot
  let st := s.kstate k
  let dest := v.toNat % 8
  if s.kbound k = 0 ∧ dest = 1 ∧ st = 3 then s.setKstate k 1
  else if s.kbound k = 0 ∧ dest = 0 ∧ (st = 1 ∨ st = 3) then s.setKstate k 0
  else s.raise (libFault 0x0C k)

/-- KNOT_EVICT: a write of STATE (R270, R271). -/
def execKnotEvict (value : Word) (s : State) : Host.Outcome State Fault Refusal := done (s.writeKnotState value)

/-- KNOT_REMOVE: a write of STATE (R270, R271). -/
def execKnotRemove (value : Word) (s : State) : Host.Outcome State Fault Refusal := done (s.writeKnotState value)

/-! ### Bind slots as the library sees them (R281, R282) -/

/-- State of a bind slot: 0 FREE, 1 PREPARING, 2 PREPARED, 3 ERROR. -/
def State.slotState (s : State) (i : Nat) : Nat := s.fld F.BIND_STATUS_STATE i

/-- Sets the state and code of a bind slot. -/
def State.setSlot (s : State) (i st code : Nat) : State :=
  (s.setFld F.BIND_STATUS_STATE st i).setFld F.BIND_STATUS_CODE code i

/-- The knot a bind slot names. -/
def State.slotKnot (s : State) (i : Nat) : Nat := s.fld F.BIND_KNOT_KNOT i

/-- A slot enters ERROR, which is also raised as a fault with the slot number and knot ID (R282).
(DESIGN CHOICE, log entry 42.) -/
def State.slotError (s : State) (i code : Nat) : State :=
  ((s.setSlot i 3 code).setBit F.KNT_EVT_BIND_ERR).raise { code := code, cls := 4, unit := i, d0 := BitVec.ofNat 32 (s.slotKnot i) }

/-- The slots whose preparation waits for a knot (R283). -/
def State.waitingSlots (s : State) (k : Nat) : List Nat := (List.range 32).filter (fun i => s.slotState i == 1 && s.slotKnot i == k)

/-! ### The library (R275, R277) -/

/-- First address of the library. -/
def State.libBase (s : State) : Nat := s.fld F.LIB_BASE_LO_ADDR * 4096 + s.fld F.LIB_BASE_HI_ADDR * 2 ^ 32

/-- Bytes of HyperRAM; none where it does not answer. -/
def State.hyperBytes (s : State) (a n : Nat) : Option (List Byte) := if s.inHyper a n then some (s.bytesAt a n) else none

/-- Address of half `h` of a knot's directory entry. -/
def State.halfAt (s : State) (k h : Nat) : Nat := s.libBase + 128 * k + 64 * h

/-- A half as it lies in the directory. -/
structure Half where
  gen : Nat
  ofs : Nat
  len : Nat
  body : Bool
  digest : List Byte
  deriving DecidableEq, Repr

/-- Reads half `h` of a knot's directory entry. -/
def State.readHalf (s : State) (k h : Nat) : Option Half :=
  (s.hyperBytes (s.halfAt k h) 64).map (fun b =>
    { gen := leField b 0 4, ofs := leField b 4 4, len := leField b 8 4, body := leField b 12 4 % 2 == 1, digest := sub b 32 32 })

/-- PT_DIGEST of a knot's entry. (DEDUCED, log entry 33.) -/
def State.knotDigest (s : State) (k : Nat) : List Byte := bytesOfWords ((List.range 8).map (fun w => s.kword k (8 + w)))

/-- Whether a half is the current one (R276): its GEN, which is not 0, is the entry's. -/
def State.halfCurrent (s : State) (k : Nat) (h : Half) : Bool := h.gen != 0 && h.gen == (s.kword k 1).toNat

/-- The number and contents of the current half of a knot (R276, R277); of two with the entry's GEN, the one with its
PT_DIGEST. (DEDUCED, log entry 36.) -/
def State.currentHalf (s : State) (k : Nat) : Option (Nat × Half) :=
  let l := [0, 1].filterMap (fun i => (s.readHalf k i).map (fun h => (i, h)))
  match l.find? (fun p => s.halfCurrent k p.2 && p.2.digest == s.knotDigest k) with
  | some p => some p
  | none => l.find? (fun p => s.halfCurrent k p.2)

/-- Bytes of the page table of an image of `n` pages (R272). -/
def tableBytes (n : Nat) : Nat := (32 * n + 4095) / 4096 * 4096

/-- The current half a load or verification uses, with the addresses of its page table and body (R277).
(DEDUCED, log entry 32.) -/
def State.usableHalf (s : State) (k : Nat) : Option (Half × Nat × Nat) :=
  match s.currentHalf k with
  | some (_, h) =>
    if h.digest == s.knotDigest k && s.fld F.LIB_SIZE_MB != 0 then
      let table := s.libBase + 4096 * h.ofs + 8192
      some (h, table, table + tableBytes (s.kpages k))
    else none
  | none => none

/-! ### Loads (R279, R283) -/

/-- The code a load of knot `k` is refused with; 0 where it may start (R277, R279, R296): a bound knot's own region is that of a knot
with BOUND above 0. (DEDUCED, log entry 37.) -/
def State.loadRefusal (s : State) (k : Nat) : Nat :=
  if s.knownKnots.any (fun j => s.overlap j k && (s.kbound j != 0 || j != k && (s.kstate j == 2 || s.kstate j == 4))) then 0x0C
  else if s.fld F.LIB_SIZE_MB = 0 then 0x04
  else match s.usableHalf k with
    | none => 0x0A
    | some (h, _, _) => if h.body then 0 else 0x04

/-- Starts the load of a LIBRARY knot: every other RESIDENT knot it overlaps becomes LIBRARY first (R270, R279). -/
def State.startLoad (s : State) (k : Nat) : State :=
  (s.knownKnots.foldl (fun s j => if j ≠ k ∧ s.overlap j k ∧ s.kstate j = 3 then s.setKstate j 1 else s) s).setKstate k 2

/-- Whether a page of the weight store can be written or read. -/
def State.pageServed (s : State) (a : Nat) : Bool := (List.range 16).all (fun i => s.storeOk (a + 256 * i) 64)

/-- Copies `n` pages of a body to the region while their digests match, and sets their verified bits (R278, R279).
(DESIGN CHOICE, log entry 40.) -/
def State.loadPages (s : State) (table body region : Nat) : Nat → Bool × State
  | 0 => (true, s)
  | n + 1 =>
    match s.hyperBytes body 4096, s.hyperBytes table 32 with
    | some data, some d =>
      if sha256Bytes data == d && s.pageServed region then
        let s := (s.turnSpan (.sys 3 0) region 4096).putWords region false (wordsOfBytes data)
        let s := { s with verified := s.verified.set (region / 4096) false true }
        State.loadPages s (table + 32) (body + 4096) (region + 4096) n
      else (false, s)
    | _, _ => (false, s)

/-- A preparation that needs its knot: it loads a LIBRARY knot, and goes on or waits in every other state (R283). -/
def State.wantKnot (s : State) (i : Nat) : State :=
  let k := s.slotKnot i
  if s.kstate k = 1 then
    let code := s.loadRefusal k
    if code = 0 then s.startLoad k else s.slotError i code
  else s

/-- LOAD_COMPLETE: the load of a knot ends (R270, R279), when the store takes accesses (R88); its failure is the error of every slot that waits for it (R282).
(DESIGN CHOICE, log entry 38.) -/
def execLoadComplete (knot : Fin 10240) (s : State) : Host.Outcome State Fault Refusal :=
  let k : Nat := knot
  done (if s.kstate k ≠ 2 || !s.opens (s.kbase k) then s
    else
      let (ok, s) := match s.usableHalf k with
        | some (_, table, body) => s.loadPages table body (s.kbase k) (s.kpages k)
        | none => (false, s)
      if ok then s.setKstate k 3
      else (s.waitingSlots k).foldl (fun s i => s.slotError i 0x0A) (s.setKstate k 1))

/-! ### Verification (R280) -/

/-- A write of VER_CTRL: GO starts a verification, or is refused with KNOT_BUSY in VER_STATUS (R280). -/
def State.writeVerCtrl (s : State) (v : Word) : State :=
  let s := s.plainWrite .VER_CTRL (v &&& 0x3FFF)
  let k := s.fld F.VER_CTRL_KNOT
  if !v.getLsbD 31 then s
  else if s.kn.ver.isSome || !(s.kstate k == 1 || s.kstate k == 3) then s.setFld F.VER_STATUS_CODE 0x0C
  else { (s.setKstate k 4).setBit F.VER_CTRL_GO with kn := { (s.setKstate k 4).kn with ver := some (k, []) } }

/-- VERIFY (R280). -/
def execVerify (value : Word) (s : State) : Host.Outcome State Fault Refusal := done (s.writeVerCtrl value)

/-- Hashes the pages of a region against a page table: a page that matches gets its verified bit, unless it was written
since the verification began; answers whether every page matched (R278, R280). (DESIGN CHOICE, log entry 40.) -/
def State.verifyPages (s : State) (table region : Nat) : Nat → Bool × State
  | 0 => (true, s)
  | n + 1 =>
    let ((data, poison), s) := if s.pageServed region then (s.turnSpan (.sys 3 0) region 4096).getBytes (sysPort 0) region 4096 else (([], true), s)
    let hit := !poison && match s.hyperBytes table 32 with
      | some d => sha256Bytes data == d
      | none => false
    let dirty := match s.kn.ver with
      | some (_, l) => l.contains (region / 4096)
      | none => false
    let s := if hit && !dirty then { s with verified := s.verified.set (region / 4096) false true } else s
    let (ok, s) := State.verifyPages s (table + 32) (region + 4096) n
    (hit && ok, s)

/-- VERIFY_END: the verification ends (R280), when the store takes accesses (R88); the slots that waited for it go on (R283).
(DEDUCED, log entry 39; DESIGN CHOICE, log entry 38.) -/
def execVerifyEnd (s : State) : Host.Outcome State Fault Refusal :=
  done (match s.kn.ver with
    | none => s
    | some (k, _) =>
      if !s.opens (s.kbase k) then s
      else
      let (ok, s) := match s.usableHalf k with
        | some (_, table, _) => s.verifyPages table (s.kbase k) (s.kpages k)
        | none => (false, s)
      let s := s.setKstate k (if ok then 3 else 1)
      let s := { s with kn := { s.kn with ver := none } }
      let s := ((s.setFld F.VER_STATUS_CODE (if ok then 0 else 0x0A)).setFld F.VER_CTRL_GO 0).setBit F.KNT_EVT_VERIFY_DONE
      let s := if ok then s else s.raise (libFault 0x0A k)
      (s.waitingSlots k).foldl State.wantKnot s)

/-! ### Imports (R272, R276) -/

/-- Ends an import with a code, 0 for success (R276, R296). (DESIGN CHOICE, log entry 41.) -/
def State.endImport (s : State) (k code : Nat) : State :=
  let s := { s with kn := { s.kn with imp := none } }
  let s := (((s.setFld F.IMP_CTRL_GO 0).setFld F.IMP_STATUS_BUSY 0).setBit F.IMP_STATUS_DONE).setFld F.IMP_STATUS_CODE code
  if code = 0 then s else s.raise (libFault code k)

/-- Step 1 of R276. (DEDUCED, log entry 34.) -/
def State.importAllowed (s : State) (r : ImportReq) : Bool :=
  let start := 4096 * r.ofs
  decide (320 ≤ r.ofs ∧ start + r.len ≤ s.fld F.LIB_SIZE_MB * 1048576) &&
    (match s.currentHalf r.knot with
      | some (_, h) => decide (start + r.len ≤ 4096 * h.ofs ∨ 4096 * h.ofs + h.len ≤ start)
      | none => true) &&
    s.kbound r.knot == 0 && s.kstate r.knot != 2 && s.kstate r.knot != 4 &&
    (List.range 32).all (fun i => s.slotState i == 0 || s.slotKnot i != r.knot)

/-- A write of IMP_CTRL (R276, R296): GO starts an import, unless one runs; a request that step 1 fails ends at once. -/
def State.writeImpCtrl (s : State) (v : Word) : State :=
  let s := s.plainWrite .IMP_CTRL (v &&& 1)
  if !v.getLsbD 31 || s.bit F.IMP_STATUS_BUSY then s
  else
    let r : ImportReq :=
      { knot := s.fld F.IMP_KNOT_KNOT, ofs := s.fld F.IMP_OFS_OFS, len := s.fld F.IMP_LEN_BYTES, noBody := v.getLsbD 0 }
    if s.importAllowed r then
      let s := (s.setBit F.IMP_CTRL_GO).setBit F.IMP_STATUS_BUSY
      { s with kn := { s.kn with imp := some r } }
    else s.endImport r.knot 0x0C

/-- LIBRARY_IMPORT (R276). -/
def execLibraryImport (value : Word) (s : State) : Host.Outcome State Fault Refusal := done (s.writeImpCtrl value)

/-- Step 3 of R276: a knot image's header against R272. -/
def knotHeaderOk (knot : Nat) (h : List Byte) : Bool :=
  let wbase := leField h 8 4
  let pages := leField h 0xC 4
  let stages := leField h 0x10 1
  let window := leField h 0x11 1
  let lo := leField h 0x1C 2
  let hi := leField h 0x1E 2
  let unnamed := (sub h 0x15 3) ++ (sub h 0x24 0x1C) ++ (sub h 0x60 (4096 - 0x60))
  leField h 0 4 == 0x544F4E4B && leField h 4 2 == 1 && leField h 6 2 == knot && decide (knot ≤ 10239) &&
    decide (wbase % 4096 = 0 ∧ wbase + 4096 * pages ≤ storeSize 0) && decide (1 ≤ pages ∧ pages ≤ 16384) &&
    decide (1 ≤ stages ∧ stages ≤ 32) && (window == 0 || decide (8 ≤ window ∧ window ≤ 64)) && decide (leField h 0x14 1 ≤ 2) &&
    leField h 0x18 4 != 0 && decide (1 ≤ lo ∧ lo ≤ hi ∧ hi ≤ 480) && unnamed.all (fun b => b == 0)

/-- Step 4 of R276: the page table against PT_DIGEST, and the body against the page table. (DEDUCED, log entry 33.) -/
def imageDigestsOk (noBody : Bool) (payload : List Byte) : Bool :=
  let pages := leField payload 0xC 4
  let table := sub payload 4096 (tableBytes pages)
  let body := payload.drop (4096 + tableBytes pages)
  sha256Bytes table == sub payload 0x40 32 &&
    (noBody || (List.range pages).all (fun p => sha256Bytes (sub body (4096 * p) 4096) == sub table (32 * p) 32))

/-- The generation after `g` (R276). -/
def nextGen (st : Nat) (g : Word) : Nat := if st = 0 then 1 else if g = 0xFFFFFFFF then 1 else g.toNat + 1

/-- The half that an import writes, of a directory entry and from the state of its knot, and the 16 words of the knot's new entry
(R269, R276): every field from the image's header `h` but STATE and BOUND. (DEDUCED, log entry 35.) -/
def State.importPlan (s : State) (r : ImportReq) (h : List Byte) : Nat × List Nat :=
  let half := match s.currentHalf r.knot with
    | some (i, _) => 1 - i
    | none => 0
  (half, [0, nextGen (s.kstate r.knot) (s.kword r.knot 1), leField h 8 4,
    leField h 0xC 4 + (leField h 0x10 1 - 1) * 2 ^ 16 + leField h 0x11 1 * 2 ^ 24, leField h 0x18 4,
    leField h 0x1C 2 + leField h 0x1E 2 * 2 ^ 16, leField h 0x12 2 + leField h 0x14 1 * 2 ^ 16, leField h 0x20 4] ++
      (List.range 8).map (fun w => leField h (0x40 + 4 * w) 4))

/-- Step 5 of R276: the other half in one burst of 64 bytes. -/
def State.writeHalf (s : State) (r : ImportReq) (h : List Byte) : State :=
  let (half, entry) := s.importPlan r h
  let burst := leBytes 4 (entry.getD 1 0) ++ leBytes 4 r.ofs ++ leBytes 4 r.len ++ leBytes 4 (if r.noBody then 0 else 1) ++
    leBytes 16 0 ++ sub h 0x40 32
  let a := s.halfAt r.knot half
  let s := (List.range 64).foldl (fun s i => s.setByte (a + i) (burst.getD i 0)) s
  { s with kn := { s.kn with imp := some { r with burst := some (half, entry) } } }

/-- Step 6 of R276: the knot's entry; BOUND stays, and a knot that is LOADING or VERIFYING keeps its STATE (R270). -/
def State.installKnot (s : State) (k half : Nat) (entry : List Nat) : State :=
  let s := (List.range 15).foldl (fun s w => s.setKword k (w + 1) (BitVec.ofNat 32 (entry.getD (w + 1) 0))) s
  let s := if s.kstate k = 2 ∨ s.kstate k = 4 then s else s.setKstate k 1
  (s.setFld F.IMP_STATUS_HALF half).addSat F.LIB_IMPORTS_COUNT

/-- Steps 2 to 4 of R276: the code of the step that fails, 0 for none, and the header of the image.
(DEDUCED, log entries 31 and 32.) -/
def State.importCheck (s : State) (r : ImportReq) : Nat × List Byte :=
  let a := s.libBase + 4096 * r.ofs
  match s.hyperBytes a headerLen with
  | none => (0x0E, [])
  | some h =>
    match s.hyperBytes (a + headerLen) (payloadLen h) with
    | none => (0x0E, [])
    | some payload =>
      if !(decide (headerLen + payloadLen h ≤ r.len) && s.containerOk true h payload) then (0x0E, [])
      else if !knotHeaderOk r.knot (payload.take 4096) then (0x04, [])
      else if !imageDigestsOk r.noBody payload then (0x0A, [])
      else (0, payload.take 4096)

/-- An import that goes on while no command comes: where steps 2 to 4 of R276 pass, step 5 is done and step 6 is still to come, so
that a reset may fall between the two (R465). (DESIGN CHOICE, log entry 224.) -/
def State.importBurst (s : State) : State :=
  match s.kn.imp with
  | none => s
  | some r =>
    if r.burst.isSome then s
    else
      let (code, h) := s.importCheck r
      if code = 0 then s.writeHalf r h else s

/-- IMPORT_END: what is left of steps 2 to 6 of R276; a failing step ends the import with its code and changes nothing else.
(DESIGN CHOICE, log entries 35 and 224.) -/
def execImportEnd (s : State) : Host.Outcome State Fault Refusal :=
  done (match s.kn.imp with
    | none => s
    | some r =>
      match r.burst with
      | some (half, entry) => (s.installKnot r.knot half entry).endImport r.knot 0
      | none =>
        let (code, h) := s.importCheck r
        if code = 0 then
          let (half, entry) := s.importPlan r h
          ((s.writeHalf r h).installKnot r.knot half entry).endImport r.knot 0
        else s.endImport r.knot code)

end Sys2Proof.Machine
end

