-- ==== Sys2Proof/Machine/Bind.lean ====
section
/-! DEFINITION. Binding (R273, R274, R281 to R285, R518), epochs (R154, R286 to R289) and the shadows an epoch applies (R305,
R319). -/

namespace Sys2Proof.Machine

/-! ### Requests (R281) -/

/-- A bind request as its slot's registers give it. -/
structure BindReq where
  slot : Nat
  knot : Nat
  epoch : Bool
  skein : Nat
  stream : Nat
  stripe : Nat
  stripes : Nat
  start : Nat
  width : Nat
  cores : List Nat
  deriving DecidableEq, Repr

/-- The request of slot `i` (R281, R295); stage k is the k-th lowest core of the mask. -/
def State.bindReq (s : State) (i : Nat) : BindReq :=
  { slot := i, knot := s.slotKnot i, epoch := s.bit F.BIND_KNOT_MODE i, skein := s.fld F.BIND_TARGET_SKEIN i
    stream := min (s.fld F.BIND_TARGET_STREAM i) 2, stripe := s.fld F.BIND_TARGET_STRIPE i
    stripes := max 1 (s.fld F.BIND_TARGET_STRIPES i), start := s.fld F.BIND_GEOM_START i, width := s.fld F.BIND_GEOM_WIDTH i
    cores := (List.range 32).filter (fun c => (s.fld F.BIND_CORES_MASK i).testBit c) }

/-- The slot BIND_SEL selects. -/
def State.selSlot (s : State) : Nat := s.fld F.BIND_SEL_SLOT

/-- State of the epoch unit: 0 IDLE, 1 OPEN, 2 COMMITTED, 3 RESIDUAL (R286). -/
def State.epochState (s : State) : Nat := s.fld F.KNT_STATUS_EPOCH_STATE

/-- The slots in epoch mode that are not FREE. -/
def State.epochSlots (s : State) : List Nat :=
  (List.range 32).filter (fun i => s.slotState i != 0 && s.bit F.BIND_KNOT_MODE i)

/-- Whether a core is bound, to a skein number. -/
def State.boundTo (s : State) (c skein : Nat) : Bool := s.bit F.CORE_BIND_VALID c && s.fld F.CORE_BIND_SKEIN c == skein

/-! ### GO (R282) -/

/-- The first failing check of a request at GO; 0 where none fails. (DEDUCED, log entry 50.) -/
def State.goCheck (s : State) (r : BindReq) : Nat :=
  let k := r.knot
  let others := ((List.range 32).filter (fun i => i != r.slot && s.slotState i != 0)).flatMap (fun i => (s.bindReq i).cores)
  let epoch := r :: s.epochSlots.map s.bindReq
  let rebound (c : Nat) : Bool := s.bit F.CORE_BIND_VALID c &&
    (epoch.any (fun q => decide (q.stream < 2) && q.stream == s.streamOf c) || epoch.any (fun q => q.skein == s.fld F.CORE_BIND_SKEIN c))
  if s.kstate k = 0 ∨ !(s.kword k 4).getLsbD (r.stripes - 1) ∨ r.stripes ≤ r.stripe ∨ r.cores.length ≠ s.kfld k 3 20 16 + 1 ∨
      r.width < s.kfld k 5 8 0 ∨ s.kfld k 5 24 16 < r.width ∨ (r.stream < 2 ∧ !r.epoch) then 0x04
  else if r.epoch && s.epochState != 1 then 0x04
  else if r.cores.any (fun c => !s.coreOn c || others.contains c) then 0x0C
  else if !r.epoch && (r.cores.any (fun c => (s.core c).state != 0) || (List.range 32).any (fun c => s.boundTo c r.skein)) then 0x0C
  else if r.epoch && r.cores.any (fun c => (s.core c).state != 0 && !rebound c) then 0x0C
  else 0

/-- BIND_CTRL.GO on a slot: a FREE slot starts its preparation, or enters ERROR (R281, R282, R283).
(DESIGN CHOICE, log entry 43.) -/
def State.bindGo (s : State) (i : Nat) : State :=
  if s.slotState i ≠ 0 then s
  else
    let code := s.goCheck (s.bindReq i)
    if code ≠ 0 then s.slotError i code else (s.setSlot i 1 0).wantKnot i

/-! ### Stage records (R273) -/

/-- A setup entry of a stage. -/
structure Setup where
  dest : Nat
  source : Nat
  count : Nat
  stride : Nat
  deriving DecidableEq, Repr

/-- A ring of a stage record. -/
structure RingRec where
  base : Nat
  skeinStride : Nat
  slots : Nat
  stride : Nat
  deriving DecidableEq, Repr

/-- A stage record with its setup list. -/
structure Stage where
  progOfs : Nat
  progLen : Nat
  patch : Nat
  qpri : Nat
  geomBase : Nat
  listOfs : Nat
  listLen : Nat
  rings : List RingRec
  setup : List Setup
  deriving DecidableEq, Repr

/-- Whether a range of bytes lies in one store, in ACTIVE bands. -/
def State.servedBytes (s : State) (a n : Nat) : Bool :=
  n == 0 || match storeOf a with
    | some st =>
      decide (a + n ≤ storeBase st + storeSize st) &&
        (List.range 8).all (fun b => s.bandState st b == 0 || decide (b < bandOf st a ∨ bandOf st (a + n - 1) < b))
    | none => false

/-- Reads bytes of a region through the weight store's system port, in the loader's class (R74); what is not served counts as
poisoned. -/
def State.regionBytes (s : State) (a n : Nat) : (List Byte × Bool) × State :=
  if s.servedBytes a n then
    let ((l, p), s) := (s.turnSpan (.sys 3 0) a n).getBytes (sysPort 0) (a / 4 * 4) (n + a % 4)
    ((l.drop (a % 4), p), s)
  else (([], true), s)

/-- A setup entry of 24 bytes. -/
def setupOf (b : List Byte) : Setup :=
  { dest := leField b 0 5, source := leField b 8 4, count := leField b 12 2, stride := leField b 16 4 }

/-- Whether `n` bytes from `a` lie in one store (R65). -/
def spanOk (a n : Nat) : Bool := n == 0 || inStores (fun _ => true) a n

/-- Reads the record of stage `k` of a knot and its setup list, with the poison of what was read; a list outside the stores is not
read. -/
def State.readStage (s : State) (knot k : Nat) : (Stage × Bool) × State :=
  let ((b, p), s) := s.regionBytes (s.kbase knot + 512 * k) 512
  let ofs := leField b 0x14 4
  let len := leField b 0x18 2
  let ((l, q), s) := if spanOk (s.kbase knot + ofs) (24 * len) then s.regionBytes (s.kbase knot + ofs) (24 * len) else (([], false), s)
  let ring (r : Nat) : RingRec :=
    let o := 0x40 + 16 * r
    { base := leField b o 5, skeinStride := leField b (o + 8) 4, slots := leField b (o + 12) 1, stride := leField b (o + 14) 2 }
  (({ progOfs := leField b 0 4, progLen := leField b 4 2, patch := leField b 6 2, qpri := leField b 0x10 4
      geomBase := leField b 0x20 4, listOfs := ofs, listLen := len, rings := (List.range 16).map ring
      setup := (List.range len).map (fun i => setupOf (sub l (24 * i) 24)) }, p || q), s)

/-- Whether an instruction is one that PATCH may name: an ADDI with ENGINE 0b00 and a = 0 (R274). -/
def patchable (w : BitVec 64) : Bool :=
  w.extractLsb' 56 8 == 0x10#8 && w.extractLsb' 54 2 == 0#2 && w.extractLsb' 40 5 == 0#5

/-- Whether every range a stage names for stripe `t` of a knot lies in the stores (R282). -/
def Stage.inStores (r : Stage) (wbase t : Nat) : Bool :=
  decide (r.progOfs % 8 = 0 ∧ 1 ≤ r.progLen ∧ r.progLen ≤ 8192 ∧ r.patch < r.progLen) &&
    spanOk (wbase + r.progOfs) (8 * r.progLen) && spanOk (wbase + r.listOfs) (24 * r.listLen) && spanOk (r.geomBase + 32 * t) 32 &&
    r.rings.all (fun g => g.slots == 0 ||
      spanOk (g.base + t * g.skeinStride) ((g.slots - 1) * g.stride + (if 12 ≤ g.stride then 12 else 8))) &&
    r.setup.all (fun u => spanOk (u.dest + t * u.stride) (4 * u.count) &&
      (u.source == 0xFFFFFFFF || spanOk (wbase + u.source) (4 * u.count)))

/-- The 64-bit instruction a list of eight bytes holds. -/
def instrOf (b : List Byte) : BitVec 64 := BitVec.ofNat 64 (leNat (b.take 8))

/-- Reads and checks the stage records of a request (R274, R282, R283); answers the code of the first failure, 0 for none.
(DESIGN CHOICE, log entry 47.) -/
def State.checkStages (s : State) (r : BindReq) : Nat × State :=
  let ((total, code), s) := (List.range r.cores.length).foldl (fun (acc : (Nat × Nat) × State) k =>
    let ((total, code), s) := acc
    if code ≠ 0 then acc
    else
      let ((g, p), s) := s.readStage r.knot k
      let base := s.kbase r.knot
      if p then ((total, 0x18), s)
      else if !g.inStores base r.stripe then ((total, 0x05), s)
      else
        let ((b, q), s) := s.regionBytes (base + g.progOfs + 8 * g.patch) 8
        if q then ((total, 0x18), s)
        else if !patchable (instrOf b) then ((total, 0x05), s)
        else ((total + 24 * g.listLen, 0), s)) ((0, 0), s)
  (if code ≠ 0 then code else if 65536 < total then 0x04 else 0, s)

/-! ### Parts of an apply (R284) -/

/-- Takes a core's bind away (R106, R285). (DESIGN CHOICE, log entry 46.) -/
def State.unbindCore (s : State) (c : Nat) : State :=
  let s := s.setFld F.CORE_BIND_VALID 0 c
  let st := (s.core c).state
  if st = 1 ∨ st = 3 ∨ st = 4 then (s.emptyCore c).updCore c (fun k => { k with state := 0 }) else s

/-- The (knot, skein) pair of a bound core. -/
def State.boundPair (s : State) (c : Nat) : Option (Nat × Nat) :=
  if s.bit F.CORE_BIND_VALID c then some (s.fld F.CORE_BIND_KNOT c, s.fld F.CORE_BIND_SKEIN c) else none

/-- Stops, cuts and unbinds cores; BOUND falls by one for each skein of a knot that loses its last core (R269, R284, R285).
(DESIGN CHOICE, log entry 46.) -/
def State.dropCores (s : State) (cores : List Nat) : State :=
  let left := (((List.range 32).filter (fun c => !cores.contains c)).filterMap s.boundPair).eraseDups
  let gone := ((cores.filterMap s.boundPair).eraseDups).filter (fun p => !left.contains p)
  let s := cores.foldl (fun s c => ((s.stopCore c).cutChain c).unbindCore c) s
  gone.foldl (fun s p => s.setKnot p.1 (s.kstate p.1) (s.kbound p.1 - 1)) s

/-- Writes bytes through a unit's port where they are served. -/
def State.putServed (s : State) (src a : Nat) (poison : Bool) (data : List Byte) : State :=
  match storeOf a with
  | some st =>
    if s.servedBytes a data.length then (s.turnSpan (requesterAt src st) a data.length).putBytes src a poison data else s
  | none => s

/-- The system port of the store an address lies in. -/
def portAt (a : Nat) : Nat := match storeOf a with
  | some st => sysPort st
  | none => 0

/-- Copies a stage's program into a core's pocket with the loader, from instruction 0, and writes the bind constant (R162,
R274, R284). (DESIGN CHOICE, log entry 48.) -/
def State.loadProgram (s : State) (c : Nat) (g : Stage) (wbase const : Nat) : State :=
  let s := ((s.wr .PKT_INDEX 0 c).wr .PKT_CRC 0xFFFFFFFF c)
  let (err, s) := s.pktCopy c (wbase + g.progOfs) g.progLen
  let s := s.pktEnd c err
  s.updCore c (fun k =>
    let w := k.pocketAt g.patch
    { k with pocket := k.pocket.put g.patch (w.extractLsb' 32 32 ++ BitVec.ofNat 32 const) })

/-- Loads a ring of a core's ring table and zeroes its count and extent words (R216, R284). -/
def State.loadRing (s : State) (c n t : Nat) (g : RingRec) : State :=
  let base := if g.slots = 0 then 0 else g.base + t * g.skeinStride
  let hi := base / 2 ^ 32 % 256 + (g.slots - 1) % 64 * 256 + (if g.slots = 0 then 0 else 2 ^ 31)
  let s := ((s.wr .RING_LO (BitVec.ofNat 32 (base / 4 * 4)) c n).wr .RING_HI (BitVec.ofNat 32 hi) c n).wr .RING_STRIDE
    (BitVec.ofNat 32 g.stride) c n
  (List.range g.slots).foldl (fun s m =>
    let a := base / 4 * 4 + m * g.stride
    s.putServed (portAt a) a false (List.replicate (if 12 ≤ g.stride then 12 else 8) 0)) s

/-- Reads everything of a knot's region that a bind copies: records, setup lists, programs, limits and setup sources; answers
whether a word of it is poisoned (R282). (DESIGN CHOICE, log entry 225.) -/
def State.readBind (s : State) (r : BindReq) : Bool × State :=
  let base := s.kbase r.knot
  let read (acc : Bool × State) (a n : Nat) : Bool × State :=
    let ((_, p), s) := acc.2.regionBytes (base + a) n
    (acc.1 || p, s)
  (List.range r.cores.length).foldl (fun (acc : Bool × State) k =>
    let ((g, p), s) := acc.2.readStage r.knot k
    let acc := read (acc.1 || p, s) g.progOfs (8 * g.progLen)
    (g.setup.filter (fun u => u.source != 0xFFFFFFFF)).foldl (fun acc u => read acc u.source (4 * u.count)) acc) (read (false, s) 0x4000 1024)

/-- Performs one setup entry: the words of the region, with their poison, or zeros (R273, R284). -/
def State.doSetup (s : State) (wbase t : Nat) (u : Setup) : State :=
  let a := u.dest + t * u.stride
  let ((l, p), s) := if u.source = 0xFFFFFFFF then ((List.replicate (4 * u.count) (0 : Byte), false), s)
    else s.regionBytes (wbase + u.source) (4 * u.count)
  s.putServed (portAt a) a p l

/-- Loads a core's copy of the shape-limit table (R273, R518). -/
def State.loadLimits (s : State) (c wbase : Nat) : State :=
  let ((l, _), s) := s.regionBytes (wbase + 0x4000) 1024
  s.updCore c (fun k => { k with
    limits := some ((List.range 128).map (fun e => (e, BitVec.ofNat 64 (leField l (8 * e) 8)))) })

/-- Writes CORE_BIND for an apply: the core is READY, and expects pass 0, tile 0 of its chain (R118, R284, R518). -/
def State.bindCore (s : State) (c : Nat) (r : BindReq) (stage : Nat) : State :=
  let v := r.knot + 2 ^ 15 + r.skein * 2 ^ 16 + stage * 2 ^ 21 + r.stream * 2 ^ 26
  let s := (s.wr .CORE_BIND (BitVec.ofNat 32 v) c).wr .CHAIN_TAG 0 c
  (s.setFld F.CHAIN_CFG_SOURCE 1 c).updCore c (fun k => { k with state := if k.state = 5 then 5 else 1 })

/-- Installs one stage of a bind on its core (step 3 of R284). -/
def State.installStage (s : State) (r : BindReq) (stage c : Nat) : State :=
  let wbase := s.kbase r.knot
  let ((g, _), s) := s.readStage r.knot stage
  let const := r.stripe + r.stripes % 64 * 2 ^ 8 + r.stream * 2 ^ 16 + r.skein * 2 ^ 24
  let s := s.loadProgram c g wbase const
  let s := (List.range 16).foldl (fun s n => s.loadRing c n r.stripe (g.rings.getD n ⟨0, 0, 0, 0⟩)) s
  let s := s.plainWrite .QPRI (BitVec.ofNat 32 g.qpri) c
  let s := s.loadLimits c wbase
  let s := g.setup.foldl (fun s u => s.doSetup wbase r.stripe u) s
  s.bindCore c r stage

/-- Installs every stage of a bind. -/
def State.installBind (s : State) (r : BindReq) : State :=
  (r.cores.zip (List.range r.cores.length)).foldl (fun s p => s.installStage r p.2 p.1) s

/-- Forms a chain of cores in order; the first is its head (R117, R284). (DESIGN CHOICE, log entry 49.) -/
def State.formChain (s : State) (id : Nat) (members : List Nat) : State :=
  let n := members.length
  (List.range n).foldl (fun s i =>
    let v := 1 + (if i = 0 then 2 else 0) + (if i + 1 < n then 4 else 0) + (if i = 0 then 0 else 8) +
      (if i = 0 then 0 else members.getD (i - 1) 0 * 2 ^ 8) + (if i + 1 < n then members.getD (i + 1) 0 * 2 ^ 16 else 0) + id * 2 ^ 24
    (s.wr .CHAIN_CFG (BitVec.ofNat 32 v) (members.getD i 0)).updCore (members.getD i 0) (fun k => { k with skid := [] })) s

/-- The chain numbers no member carries. -/
def State.freeChains (s : State) : List Nat :=
  (List.range 16).filter (fun n => !(List.range 32).any (fun c => s.bit F.CHAIN_CFG_MEMBER c && s.fld F.CHAIN_CFG_CHAIN_ID c == n))

/-- Order of a bind in its chain: its stripe, or its skein number without a stream. -/
def BindReq.order (r : BindReq) : Nat := if r.stream < 2 then r.stripe else r.skein

/-- The cores that carry stage `k` of knot `knot` in a set, in chain order. -/
def chainMembers (set : List BindReq) (knot k : Nat) : List Nat :=
  let l := set.filter (fun r => r.knot == knot && decide (k < r.cores.length))
  (l.mergeSort (fun a b => decide (a.order ≤ b.order))).map (fun r => r.cores.getD k 0)

/-- Forms the chains of a set, by knot and stage, over the lowest free numbers (step 4 of R284).
(DESIGN CHOICE, log entry 49.) -/
def State.formChains (s : State) (set : List BindReq) : State :=
  let knots := ((set.map (fun r => r.knot)).eraseDups).mergeSort (fun a b => decide (a ≤ b))
  knots.foldl (fun s knot => (List.range 32).foldl (fun s k =>
    let m := chainMembers set knot k
    if m.length < 2 then s else match s.freeChains with
      | [] => s
      | id :: _ => s.formChain id m) s) s

/-! ### Input paths (R305) -/

/-- Zeroes the count words of a path's input tensor ring and restarts its rows at 0: the row released next is row 0 (R305). -/
def State.restartPath (s : State) (x : Nat) : State :=
  let p := s.paths.look x {}
  let s := { s with paths := s.paths.put x { p with base := -(p.next : Int), j := p.height - p.next, written := [] } }
  (List.range (s.fld F.INP_RING_CFG_SLOTS x + 1)).foldl (fun s m =>
    let a := s.fld F.INP_COUNT_BASE_ADDR x * 4 + m * s.fld F.INP_COUNT_STRIDE_BYTES x
    if storeOf a = some 1 then s.putServed 32 a false (List.replicate 8 0) else s) s

/-- The registers of a path's tensor ring, whose change at an epoch apply restarts it (R305). -/
def ringRegs : List RegId := [.INP_RING_BASE, .INP_RING_CFG, .INP_SLOT_STRIDE, .INP_PLANE_STRIDE, .INP_COUNT_BASE, .INP_COUNT_STRIDE]

/-- Whether the reference writer of path `x` takes the frames of its sink (R310). -/
def State.refOn (s : State) (x : Nat) : Bool := s.bit F.INP_CTRL_EN x && s.bit F.INP_CTRL_MODE x && s.bit F.MOT_CTRL_EN x

/-- Brings shadow writes into force (R288, R319): an enabled path starts its rows and its map alternation again, and at an
epoch apply so does a path whose ring registers change (R305, R309); a writer that is turned off, or given another sink, leaves the
buffer it writes empty (R312). -/
def State.takeWrites (s : State) (ws : List ShadowWrite) (epoch : Bool) : State :=
  let old := s
  let s := ws.foldl (fun s w => s.wr w.reg w.value w.i w.j) s
  [0, 1].foldl (fun s x =>
    let started := s.bit F.INP_CTRL_EN x && !old.bit F.INP_CTRL_EN x
    let changed := epoch && ringRegs.any (fun r => s.rd r x != old.rd r x)
    let s := if started then { s with paths := s.paths.put x { s.paths.look x {} with maps := none } } else s
    let writes := s.refOn x && old.fld F.INP_CTRL_SRC x == s.fld F.INP_CTRL_SRC x
    let s := if writes then s else { s with mot := s.mot.put x { s.mot.look x {} with writing := none } }
    if started || changed then s.restartPath x else s) s

/-- Brings every epoch-shadowed register into force (R288). -/
def State.takeEpochShadow (s : State) : State := { s with epochShadow := [] }.takeWrites s.epochShadow true

/-! ### The apply (R284) -/

/-- Stops the cores of a stream, which becomes unprepared and runs FORCED (R22, R288). -/
def State.stopStream (s : State) (x : Nat) : State :=
  let s := (List.range 32).foldl (fun s c => if s.bit F.CORE_BIND_VALID c ∧ s.streamOf c = x then s.stopCore c else s) s
  { s with pics := s.pics.put x { s.pics.look x {} with unprepared := true } }

/-- The first line of the layer that shows stream `x`, on the raster its path feeds (R12, R327, R357). -/
def State.layerTop (s : State) (x : Nat) : Option Nat :=
  if s.pathRaster x = 1 then some (s.frc F.CMP_TKO_POS_Y) else (s.layerOf x).map (fun l => s.frc F.LAY_POS_Y l)

/-- Rel(`n`) of raster `r` under a window of `w` lines, in ns after the boundary its frame began with (R12, R353). -/
def State.relAfter (s : State) (r n w : Nat) : Rat :=
  (((s.frc F.TMG_V_VTOTAL r : Int) - s.frc F.TMG_V_VACT r + (s.raster r).adj + n - 2 - w : Int) : Rat) * s.linePeriod r

/-- Whether the first release instant of stream `x` in the frame that runs has passed, so that a stream bound now is FORCED for
the whole frame (R289). (DEDUCED, log entry 203.) -/
def State.boundLate (s : State) (x w : Nat) : Bool :=
  let r := s.pathRaster x
  s.running r && match s.layerTop x with
    | some y => decide (s.relAfter r y w < ((s.elapsed (s.raster r).boundaryAt : Nat) : Rat))
    | none => false

/-- Step 5 of R284 for a rebound stream: W, the geometry and its limits, and the restart of its input path (R305).
(DESIGN CHOICE, log entry 206.) -/
def State.planStream (s : State) (x : Nat) (set : List BindReq) : State :=
  let l := (set.filter (fun r => r.stream == x)).mergeSort (fun a b => decide (a.stripe ≤ b.stripe))
  match l with
  | [] => s
  | r :: _ =>
    let (records, s) := l.foldl (fun (acc : List (List Nat) × State) q =>
      let (bases, s) := (List.range q.cores.length).foldl (fun (acc : List Nat × State) k =>
        let ((g, _), s) := acc.2.readStage q.knot k
        (acc.1 ++ [g.geomBase + 32 * q.stripe], s)) ([], acc.2)
      (acc.1 ++ [bases.eraseDups], s)) ([], s)
    let plan : StreamPlan :=
      { window := s.kfld r.knot 3 30 24
        deps := (l.map (fun q => (s.kfld q.knot 6 15 0, s.kfld q.knot 6 17 16))).eraseDups
        skeins := l.map (fun q => q.skein), cores := l.map (fun q => q.cores), records := records }
    let late := s.boundLate x plan.window
    let s := { s with pics := s.pics.put x { s.pics.look x {} with
      plan := some plan, unprepared := false, rebound := true, lineBase := 0, forcedFrame := late } }
    let s := { s with stores := { s.stores with late := s.stores.late.filter (fun l => l.stream != x) } }
    let s := s.wr .GEOM_LIMIT (s.kword r.knot 5 &&& 0x01FF01FF) x
    (s.putGeometry .STRIPE_GEOM x (l.map (fun q => (q.start, q.width)))).restartPath x

/-- The checks of an apply (R282, R284): a bind whose region is no longer verified, or with a poisoned word in what it copies, goes
to ERROR; answers those binds. (DESIGN CHOICE, log entry 225.) -/
def State.applyChecks (s : State) (ids : List Nat) : List Nat × State :=
  ids.foldl (fun (acc : List Nat × State) i =>
    if !s.knotVerified (s.slotKnot i) then (acc.1 ++ [i], acc.2.slotError i 0x0B)
    else
      let (p, t) := acc.2.readBind (acc.2.bindReq i)
      if p then (acc.1 ++ [i], t.slotError i 0x18) else (acc.1, t)) ([], s)

/-- Installs a set of PREPARED binds (R284). (DEDUCED, log entry 45.) -/
def State.applyBinds (s : State) (ids : List Nat) : State :=
  let (bad, s) := s.applyChecks ids
  let badStreams := ((bad.map (fun i => (s.bindReq i).stream)).filter (fun x => decide (x < 2))).eraseDups
  let s := badStreams.foldl State.stopStream s
  let set := (ids.filter (fun i => !bad.contains i && !badStreams.contains (s.bindReq i).stream)).map s.bindReq
  if set.isEmpty then s
  else
    let streams := ((set.map (fun r => r.stream)).filter (fun x => decide (x < 2))).eraseDups
    let named := set.flatMap (fun r => r.cores)
    let s := s.dropCores ((List.range 32).filter (fun c =>
      (named.contains c && (s.core c).state != 0) || (s.bit F.CORE_BIND_VALID c && streams.contains (s.streamOf c))))
    let s := set.foldl State.installBind s
    let s := s.formChains set
    let s := streams.foldl (fun s x => s.planStream x set) s
    let s := set.foldl (fun s r => s.setKnot r.knot (s.kstate r.knot) (min 32 (s.kbound r.knot + 1))) s
    let s := named.foldl State.startCore s
    (set.foldl (fun s r => s.setSlot r.slot 0 0) s).setBit F.KNT_EVT_BIND_DONE

/-- The preparation of a slot completes (R283), when the store takes accesses (R88): a slot whose knot is not yet there waits or loads it; its stage records are
read and checked; it becomes PREPARED. -/
def State.prepareSlot (s : State) (i : Nat) : State :=
  let k := s.slotKnot i
  if s.slotState i ≠ 1 ∨ s.kstate k = 2 ∨ s.kstate k = 4 ∨ !s.opens (s.kbase k) then s
  else if s.kstate k = 1 then s.wantKnot i
  else if !s.knotVerified k then s.slotError i 0x0B
  else
    let (code, s) := s.checkStages (s.bindReq i)
    if code = 0 then s.setSlot i 2 0 else s.slotError i code

/-- BIND_PREPARED (R283). (DEDUCED, log entry 44.) -/
def execBindPrepared (slot : Fin 32) (s : State) : Host.Outcome State Fault Refusal := done (s.prepareSlot slot)

/-- BIND_APPLY: the apply of an immediate bind, once PREPARED (R284). -/
def execBindApply (slot : Fin 32) (s : State) : Host.Outcome State Fault Refusal :=
  done (if s.slotState slot = 2 ∧ !s.bit F.BIND_KNOT_MODE slot then s.applyBinds [slot] else s)

/-! ### Other requests (R281, R285) -/

/-- CANCEL: a slot that has not applied returns to FREE (R281). -/
def State.bindCancel (s : State) (i : Nat) : State := s.setSlot i 0 0

/-- UNBIND of a skein (R285). -/
def State.unbindSkein (s : State) (skein : Nat) : State := s.dropCores ((List.range 32).filter (fun c => s.boundTo c skein))

/-- A write of BIND_CTRL: GO, UNBIND, CANCEL, for the selected slot (R281, R285, R295). -/
def State.writeBindCtrl (s : State) (v : Word) : State :=
  let i := s.selSlot
  let s := if v.getLsbD 0 then s.bindGo i else s
  let s := if v.getLsbD 1 then s.unbindSkein (s.fld F.BIND_TARGET_SKEIN i) else s
  if v.getLsbD 2 then s.bindCancel i else s

/-- A write of a request register is ignored unless its slot is FREE (R281). -/
def State.writeBindReq (s : State) (r : RegId) (v : Word) : State :=
  if s.slotState s.selSlot = 0 then s.plainWrite r v s.selSlot else s

/-- BIND_GO (R282). -/
def execBindGo (value : Word) (s : State) : Host.Outcome State Fault Refusal := done (s.writeBindCtrl value)

/-- BIND_CANCEL (R281). -/
def execBindCancel (value : Word) (s : State) : Host.Outcome State Fault Refusal := done (s.writeBindCtrl value)

/-- BIND_UNBIND (R285). -/
def execBindUnbind (value : Word) (s : State) : Host.Outcome State Fault Refusal := done (s.writeBindCtrl value)

/-! ### Epochs (R286 to R288) -/

/-- Sets the state of the epoch unit. -/
def State.setEpoch (s : State) (st : Nat) : State := s.setFld F.KNT_STATUS_EPOCH_STATE st

/-- An operation that is not allowed sets EPOCH_REJECT (R286). -/
def State.epochReject (s : State) : State := s.setBit F.KNT_EVT_EPOCH_REJECT

/-- The units of the epoch (R288): a stream as its number, the bind of slot `i` without a stream as `2 + i`. -/
def State.epochUnits (s : State) : List Nat :=
  (s.epochSlots.map (fun i => let x := (s.bindReq i).stream; if x < 2 then x else 2 + i)).eraseDups

/-- The slots of a unit. -/
def State.unitSlots (s : State) (u : Nat) : List Nat :=
  if u < 2 then s.epochSlots.filter (fun i => (s.bindReq i).stream == u) else s.epochSlots.filter (fun i => 2 + i == u)

/-- Whether a unit is ready (R288). -/
def State.unitReady (s : State) (u : Nat) : Bool :=
  (s.unitSlots u).all (fun i => s.slotState i == 2) && (2 ≤ u ||
    (List.range 32).all (fun c => !(s.fld F.EPOCH_CORES_CORES).testBit c || !s.bit F.CORE_BIND_VALID c || s.streamOf c != u ||
      (s.fld F.EPOCH_READY_READY).testBit c))

/-- Streams of a list of units as a bit mask. -/
def unitMask (us : List Nat) : Nat := (if us.contains 0 then 1 else 0) + (if us.contains 1 then 2 else 0)

/-- Records the pending units (R288). -/
def State.setPending (s : State) (us : List Nat) : State :=
  { s with kn := { s.kn with pend := us } }.setFld F.EPOCH_STREAMS_PENDING (unitMask us)

/-- Evaluates the epoch (R288). -/
def State.evaluateEpoch (s : State) : State :=
  if s.epochState = 2 then
    let units := s.epochUnits
    let ready := units.filter s.unitReady
    let unready := units.filter (fun u => !ready.contains u)
    let wait := s.fld F.KNT_STATUS_WAITED
    if unready.isEmpty then
      let s := s.takeEpochShadow.applyBinds (ready.flatMap s.unitSlots)
      { (s.setBit F.KNT_EVT_EPOCH_APPLIED).setEpoch 0 with cmp := { s.cmp with gate := true } }
    else if wait < s.fld F.KNT_CTRL_EPOCH_LIMIT then s.setFld F.KNT_STATUS_WAITED (wait + 1)
    else
      let s := s.takeEpochShadow.applyBinds (ready.flatMap s.unitSlots)
      let s := (unready.filter (fun u => decide (u < 2))).foldl State.stopStream s
      let s := ((s.setPending unready).addSat F.EPOCH_PARTIAL_CNT_COUNT).setBit F.KNT_EVT_EPOCH_PARTIAL
      { (s.raise { code := 0x0D, cls := 4, unit := 0, d0 := s.rd .EPOCH_NUM, d1 := BitVec.ofNat 32 (unitMask unready) }).setEpoch 3 with
        cmp := { s.cmp with gate := true } }
  else if s.epochState = 3 then
    let now := s.kn.pend.filter (fun u => s.epochUnits.contains u && s.unitReady u)
    let rest := s.kn.pend.filter (fun u => s.epochUnits.contains u && !now.contains u)
    let s := (s.applyBinds (now.flatMap s.unitSlots)).setPending rest
    if rest.isEmpty then (s.setBit F.KNT_EVT_EPOCH_APPLIED).setEpoch 0 else s
  else s

/-- Whether a stream's binds in the epoch pass the checks of R287. -/
def State.streamChecks (s : State) (x : Nat) : Bool :=
  let l := ((s.unitSlots x).map s.bindReq).mergeSort (fun a b => decide (a.stripe ≤ b.stripe))
  match l with
  | [] => true
  | r :: _ =>
    l.map (fun q => q.stripe) == List.range r.stripes && l.all (fun q => q.stripes == r.stripes) &&
      l.all (fun q => s.kfld q.knot 3 30 24 == s.kfld r.knot 3 30 24 && s.kword q.knot 7 == s.kword r.knot 7) &&
      (l.zip l.tail).all (fun p => p.1.start + p.1.width == p.2.start)

/-- The epoch operations of R286: 1 OPEN, 2 COMMIT, 3 ABORT. -/
def State.epochOp (s : State) (op : Nat) (num : Word) : State :=
  let st := s.epochState
  if op = 1 then
    if st = 0 then
      ((((s.wr .EPOCH_NUM num).wr .EPOCH_CORES 0).wr .EPOCH_READY 0).setFld F.KNT_STATUS_WAITED 0).setEpoch 1
    else s.epochReject
  else if op = 2 then
    if st = 1 then
      let s := [0, 1].foldl (fun s x => if s.streamChecks x then s
        else (s.unitSlots x).foldl (fun s i => if s.slotState i = 3 then s else s.slotError i 0x04) s) s
      let s := s.setEpoch 2
      if s.outputOn then s else s.evaluateEpoch
    else s.epochReject
  else if st = 1 ∨ st = 2 then
    let s := (s.epochSlots.foldl State.bindCancel s).setEpoch 0
    if s.bit F.CMP_STATUS_PENDING && s.cmp.epoch && !s.cmp.gate then
      (s.setFld F.CMP_STATUS_PENDING 0).setBit F.CMP_EVT_REJECT
    else s
  else if st = 3 then (((s.kn.pend.flatMap s.unitSlots).foldl State.bindCancel s).setPending []).setEpoch 0
  else s.epochReject

/-- READY of core `c` for an epoch number (R286). -/
def State.epochReadyOf (s : State) (c : Nat) (num : Word) : State :=
  if (s.epochState = 1 ∨ s.epochState = 2) ∧ num = s.rd .EPOCH_NUM ∧ (s.fld F.EPOCH_CORES_CORES).testBit c then
    s.setBit F.EPOCH_READY_READY c
  else s.addSat F.EPOCH_STRAY_COUNT

/-- The body of EPOCH with op 1 to 3 (R154, R286). -/
def epochBody (op : Nat) (e : EngId) (b : KBits) (s : State) : State := (s.epochOp op ((s.eng e).rs (b.f 47 43))).retire e

/-- The body of EPOCH with op 0. -/
def epochReadyBody (e : EngId) (b : KBits) (s : State) : State :=
  match coreOf e with
  | some c => (s.epochReadyOf c ((s.eng e).rs (b.f 47 43))).retire e
  | none => s

/-- Keepers alone execute EPOCH with op 1 to 3, with ENGINE 0b11 (R154). -/
def keeperEpoch (op : Nat) (e : EngId) (b : KBits) (s : State) : State :=
  runInstr { keeper := true } (fun b => b.z 42 0 && b.engine == 3) (epochBody op) e b s

/-- EPOCH with op 0, READY (R154, R286). -/
def execEpochReady (e : EngId) (b : KBits) (s : State) : Host.Outcome State Fault Refusal :=
  done (runInstr fetchOnly (fun b => b.z 42 0) epochReadyBody e b s)

/-- EPOCH with op 1, OPEN (R154, R286). -/
def execEpochOpen (e : EngId) (b : KBits) (s : State) : Host.Outcome State Fault Refusal := done (keeperEpoch 1 e b s)

/-- EPOCH with op 2, COMMIT (R154, R287). -/
def execEpochCommit (e : EngId) (b : KBits) (s : State) : Host.Outcome State Fault Refusal := done (keeperEpoch 2 e b s)

/-- EPOCH with op 3, ABORT (R154, R286). (DEDUCED, log entry 51.) -/
def execEpochAbort (e : EngId) (b : KBits) (s : State) : Host.Outcome State Fault Refusal := done (keeperEpoch 3 e b s)

/-- A write of EPOCH_CORES is ignored unless the state is OPEN (R295). -/
def State.writeEpochCores (s : State) (v : Word) : State := if s.epochState = 1 then s.wr .EPOCH_CORES v else s

end Sys2Proof.Machine
end

