-- ==== Sys2Proof/Machine/Ether.lean ====
section
/-! DEFINITION. The bytes of the frames the Ethernet ports send and receive: the Pulet frame with its CRC, the gPTP messages, and the
Ethernet frame around them (R369, R370, R397, R404). -/

namespace Sys2Proof.Machine

/-! ### The Pulet frame (R370) -/

/-- FLAGS: [0] HOSTSRC, [1] HOSTDST, [2] ACKREQ, [3] POISON, [4] FIRST, [5] REPAIR (R370). -/
def frameFlags (f : Frame) : Byte :=
  f.spareFlags ++ (BitVec.ofBool f.repair ++ (BitVec.ofBool f.first ++ (BitVec.ofBool f.poison ++
    (BitVec.ofBool f.ackReq ++ (BitVec.ofBool f.hostDst ++ BitVec.ofBool f.hostSrc)))))

/-- Offsets 22 to the end of the data, with `hops` in HOPS (R370). (DEDUCED, log entry 85.) -/
def frameBody (f : Frame) (hops : Byte) : List Byte :=
  [f.mtype, f.dst ++ f.src, hops, frameFlags f] ++ beBytes 2 f.tag.toNat ++ [f.win, f.status] ++ beBytes 2 f.gen.toNat ++
    [f.chan, f.group] ++ beBytes 5 f.offset.toNat ++ [f.spare] ++ beBytes 4 f.aux.toNat ++ f.data

/-- The bytes a frame's CRC covers: offsets 22 to the end of the data, HOPS as zero (R370). -/
def coveredBytes (f : Frame) : List Byte := frameBody f 0

/-- The end-to-end CRC of a frame's contents (R370). -/
def frameCheck (f : Frame) : Word := crc32c (coveredBytes f)

/-- LEN of a DATA frame: the bytes from offset 22 to the end of the CRC (R370). -/
def frameLen (f : Frame) : Nat := 26 + f.data.length

/-- Offsets 14 to 21: version 1 and the kind, SEQ, ACKN and LEN (R370). -/
def linkHeader (kind : Nat) (seq ackn : BitVec 16) (len : Nat) : List Byte :=
  [BitVec.ofNat 8 (16 + kind), 0] ++ beBytes 2 seq.toNat ++ beBytes 2 ackn.toNat ++ beBytes 2 len

/-- A DATA frame from offset 14 to the end of its CRC (R370). (DEDUCED, log entry 235.) -/
def frameBytes (f : Frame) : List Byte := linkHeader 0 f.seq f.ackn (frameLen f) ++ frameBody f f.hops ++ beBytes 4 f.crc.toNat

/-- The DATA frame in the bytes from offset 14 on, where LEN is one that R370 allows and the bytes hold it. -/
def parseData (l : List Byte) : Option Frame :=
  let len := beField l 6 2
  let flags : Byte := l.getD 11 0
  if len < 26 ∨ 8218 < len ∨ len % 4 ≠ 2 ∨ l.length < 8 + len then none
  else some
    { seq := BitVec.ofNat 16 (beField l 2 2), ackn := BitVec.ofNat 16 (beField l 4 2), mtype := l.getD 8 0
      dst := (l.getD 9 0).extractLsb' 4 4, src := (l.getD 9 0).setWidth 4, hops := l.getD 10 0
      hostSrc := flags.getLsbD 0, hostDst := flags.getLsbD 1, ackReq := flags.getLsbD 2, poison := flags.getLsbD 3
      first := flags.getLsbD 4, repair := flags.getLsbD 5, tag := BitVec.ofNat 16 (beField l 12 2), win := l.getD 14 0
      status := l.getD 15 0, gen := BitVec.ofNat 16 (beField l 16 2), chan := l.getD 18 0, group := l.getD 19 0
      offset := BitVec.ofNat 40 (beField l 20 5), aux := BitVec.ofNat 32 (beField l 26 4), data := sub l 30 (len - 26)
      crc := BitVec.ofNat 32 (beField l (len + 4) 4), spareFlags := flags.extractLsb' 6 2, spare := l.getD 25 0 }

/-- The Pulet frame in the bytes from offset 14 on: its version, kind and LEN are those of R370, or it is no frame of this
layer. (DESIGN CHOICE, log entry 236.) -/
def parsePulet (l : List Byte) : WireFrame :=
  let ackn := BitVec.ofNat 16 (beField l 4 2)
  match (l.getD 0 0).toNat with
  | 0x10 => match parseData l with
    | some f => .data f
    | none => .malformed
  | 0x11 => .ack ackn
  | 0x12 => .nak ackn
  | 0x13 => .sync ackn
  | 0x14 => .syncAck ackn
  | _ => .malformed

/-! ### gPTP messages (R397, R404, R406) -/

/-- A message with the time stamp of NT `t`: the seconds ⌊NT / 10^9⌋ and the nanoseconds NT mod 10^9 (R397). -/
def ptpStamped (m : PtpMsg) (t : Int) : PtpMsg :=
  let nt := lowBits 64 t
  { m with seconds := BitVec.ofNat 48 (nt / 1000000000), nanos := BitVec.ofNat 32 (nt % 1000000000) }

/-- The messageType of each gPTP message of the profile, with its contents. (PRESUMED, log entry 237.) -/
def WireFrame.ptp : WireFrame → Option (Nat × PtpMsg)
  | .ptpSync m | .relaySync m _ _ | .gmSync m => some (0, m)
  | .pdelayReq m => some (2, m)
  | .pdelayResp m => some (3, m)
  | .ptpFollowUp m => some (8, m)
  | .pdelayRespFollowUp m => some (10, m)
  | _ => none

/-- A gPTP message from offset 14 on: the header, the time stamp, and the Follow_Up information TLV of a Sync or Follow_Up or ten more
bytes; what this profile does not use is zero. (PRESUMED, log entry 237.) -/
def ptpBytes (ty : Nat) (m : PtpMsg) : List Byte :=
  let tlv := ty == 0 || ty == 8
  [BitVec.ofNat 8 (16 + ty), 2] ++ beBytes 2 (if tlv then 76 else 54) ++ [m.domain, 0, if m.twoStep then 2 else 0, 8] ++
    beBytes 8 m.correction.toNat ++ List.replicate 14 0 ++ beBytes 2 m.seqId.toNat ++ [0, 0] ++ beBytes 6 m.seconds.toNat ++
    beBytes 4 m.nanos.toNat ++
    (if tlv then [0, 3, 0, 28, 0, 0x80, 0xC2, 0, 0, 1] ++ beBytes 4 m.rateOffset.toNat ++ List.replicate 18 0 else List.replicate 10 0)

/-- The gPTP message in the bytes from offset 14 on; `ptpIgnored` is one this profile discards: an Announce, a Signaling or management
message, or one of another version (R404). (PRESUMED, log entry 237.) -/
def parsePtp (l : List Byte) : WireFrame :=
  let ty := (l.getD 0 0).toNat
  let m : PtpMsg :=
    { seqId := BitVec.ofNat 16 (beField l 30 2), seconds := BitVec.ofNat 48 (beField l 34 6), nanos := BitVec.ofNat 32 (beField l 40 4)
      correction := BitVec.ofNat 64 (beField l 8 8), rateOffset := BitVec.ofNat 32 (beField l 54 4)
      twoStep := (l.getD 6 0).getLsbD 1, domain := l.getD 4 0 }
  if (l.getD 1 0).toNat % 16 ≠ 2 ∨ l.length < 44 then .ptpIgnored
  else match ty with
    | 0x10 => .ptpSync m
    | 0x12 => .pdelayReq m
    | 0x13 => .pdelayResp m
    | 0x18 => .ptpFollowUp m
    | 0x1A => .pdelayRespFollowUp m
    | _ => .ptpIgnored

/-! ### The Ethernet frame (R368 to R370) -/

/-- A frame from offset 14 to the end of its contents, where this model holds them: the Pulet frames. (DEDUCED, log entry 235.) -/
def WireFrame.contents : WireFrame → Option (List Byte)
  | .data f => some (frameBytes f)
  | .ack n => some (linkHeader 1 0 n 0)
  | .nak n => some (linkHeader 2 0 n 0)
  | .sync n => some (linkHeader 3 0 n 0)
  | .syncAck n => some (linkHeader 4 0 n 0)
  | _ => none

/-- One bit of the CRC-32 of IEEE 802.3. -/
def crc32Bit (c : Word) : Word := if c.getLsbD 0 then (c >>> 1) ^^^ 0xEDB88320 else c >>> 1

/-- The FCS of an Ethernet frame, as a number whose low byte is sent first. (PRESUMED, log entry 238.) -/
def ethernetFcs (l : List Byte) : Word :=
  ~~~ (l.foldl (fun c b => (List.range 8).foldl (fun c _ => crc32Bit c) (c ^^^ b.setWidth 32)) 0xFFFFFFFF)

/-- An Ethernet frame to the byte before its FCS: DA, SA, EtherType, the contents, and zero bytes to the minimum of 64 (R370). -/
def etherFrame (da sa : BitVec 48) (etype : BitVec 16) (contents : List Byte) : List Byte :=
  beBytes 6 da.toNat ++ beBytes 6 sa.toNat ++ beBytes 2 etype.toNat ++ contents ++ List.replicate (46 - contents.length) 0

/-- The bytes of a Pulet frame as a port sends it, with its FCS and the bit CORRUPT_LINK inverts (R370, R391). -/
def Sent.bytes (x : Sent) : Option (List Byte) :=
  x.frame.contents.map (fun c =>
    let l := etherFrame x.da x.sa x.etype c
    let l := l ++ leBytes 4 (ethernetFcs l).toNat
    match x.flip with
    | some n => l.modify (14 + n % (l.length - 18)) (fun b => b ^^^ 1)
    | none => l)

end Sys2Proof.Machine
end

