-- ==== Sys2Proof/Machine/Sinks.lean ====
section
/-! DEFINITION. The sink ports (R297 to R301), the processing space (R302,
R306), the reference and pyramid writers (R310 to R313), and the INPUT lock of a raster (R354). -/

namespace Sys2Proof.Machine

/-! ### Records -/

/-- Sink `i`. -/
def State.sink (s : State) (i : Nat) : Sink := s.sinks.look i {}

/-- Replaces sink `i`. -/
def State.setSink (s : State) (i : Nat) (k : Sink) : State := { s with sinks := s.sinks.put i k }

/-- Input path `x`. -/
def State.path (s : State) (x : Nat) : InPath := s.paths.look x {}

/-- Replaces input path `x`. -/
def State.setPath (s : State) (x : Nat) (p : InPath) : State := { s with paths := s.paths.put x p }

/-- The re-timing unit of stream `x`. (DEDUCED, log entry 63.) -/
def State.motOf (s : State) (x : Nat) : Mot := s.mot.look x {}

/-- Replaces the re-timing unit of stream `x`. -/
def State.setMot (s : State) (x : Nat) (m : Mot) : State := { s with mot := s.mot.put x m }

/-- Bypass factors of a path (R307). -/
def State.factors (s : State) (x : Nat) : Nat × Nat := (s.fld F.INP_BYP_HF x + 1, s.fld F.INP_BYP_VF x + 1)

/-! ### Lookup tables (R339) -/

/-- The key of a LUT entry. -/
def lutKey (lut bank comp i : Nat) : Nat := ((2 * lut + bank) * 3 + comp) * 1025 + i

/-- A LUT entry (R339). (DESIGN CHOICE, log entry 6.) -/
def State.lutEntry (s : State) (lut bank comp i : Nat) : Nat := s.cmp.lut.look (lutKey lut bank comp i) (4 * i)

/-- The bank of a LUT in force (R340). (DEDUCED, log entry 78.) -/
def State.lutBank (s : State) (lut : Nat) : Nat := if (s.fld F.LUT_STATUS_BANK).testBit lut then 1 else 0

/-- A value mapped by a LUT; a disabled LUT passes it (R339). -/
def State.lutMap (s : State) (lut comp v : Nat) : Nat :=
  if !(s.fld F.LUT_STATUS_EN).testBit lut then v
  else
    let e (i : Nat) : Int := (s.lutEntry lut (s.lutBank lut) comp i : Nat)
    let f : Int := ((v % 4 : Nat) : Int)
    (min (roundShift ((4 - f) * e (v / 4) + f * e (v / 4 + 1)) 2) 4095).toNat

/-! ### Formats (R298, R346) -/

/-- Bits of a pixel, in sixteenths, by encoding and bits per component. -/
def pixelBits16 (enc bpc : Nat) : Nat := (if enc < 2 then 48 else if enc = 2 then 32 else 24) * (8 + 2 * min bpc 2)

/-- The payload rate of a trained link of 4 lanes, in kb/s times 132 (R297): 8b/10b for HBR3, 128b/132b above.
(DEDUCED, log entry 56.) -/
def linkRate132 (rate : Nat) : Nat :=
  if rate = 1 then 25920000 * 132 else if rate = 2 then 40000000 * 128 else if rate = 3 then 54000000 * 128
  else if rate = 4 then 80000000 * 128 else 0

/-- Whether a format's data rate is within the payload rate of a link (R298, R346). (DEDUCED, log entry 56.) -/
def fitsLink (rate khz bits16 : Nat) : Bool := decide (khz * bits16 * 132 ≤ 16 * linkRate132 rate)

/-- Whether DSC decode supports a format: 1 to 16 slices of up to 2,560 pixels, not simple 4:2:2 (R297). -/
def dscOk (f : VideoFormat) : Bool :=
  decide (1 ≤ f.slices ∧ f.slices ≤ 16 ∧ f.hact.toNat ≤ 2560 * f.slices) && !f.simple422

/-- Whether a sink accepts a timing and encoding (R297, R298). (DESIGN CHOICE, log entries 55 and 200.) -/
def formatOk (rate : Nat) (f : VideoFormat) : Bool :=
  decide (640 ≤ f.hact.toNat ∧ f.hact.toNat ≤ 7680 ∧ f.hact.toNat % 2 = 0 ∧ 480 ≤ f.vact.toNat ∧ f.vact.toNat ≤ 4320 ∧
    (f.enc.val = 3 → f.vact.toNat % 2 = 0) ∧ f.pixelKhz ≤ 4200000 ∧ 23976 ≤ f.rateMilliHz ∧ f.rateMilliHz ≤ 120000) &&
    (if f.dsc then dscOk f else fitsLink rate f.pixelKhz (pixelBits16 f.enc f.bpc))

/-- Whether sink `i` accepts a format on its link: with DSC only while it advertises DSC decode (R297, R298, R320).
(DEDUCED, log entry 226.) -/
def State.accepts (s : State) (i : Nat) (f : VideoFormat) : Bool :=
  formatOk (s.fld F.SNK_STATUS_RATE i) f && (!f.dsc || s.bit F.SNK_CTRL_DSC_EN i)

/-! ### The processing space (R302, R306) -/

/-- A decoded line with the chroma of its line pair: in 4:2:0 the chroma that came with the first line of a pair serves both
(R302). (DESIGN CHOICE, log entry 227.) -/
def Sink.withChroma (k : Sink) (f : VideoFormat) (line : Nat) (comps : List (List (BitVec 12))) : List (List (BitVec 12)) :=
  if f.enc.val = 3 ∧ line % 2 = 1 ∧ k.nextLine = line then comps.take 1 ++ k.chroma else comps

/-- Component `k` of pixel `x` of a decoded line, widened to 12 bits, chroma replicated (steps 1 and 2 of R302). -/
def lineSample (f : VideoFormat) (comps : List (List (BitVec 12))) (k x : Nat) : Nat :=
  let bits := 8 + 2 * f.bpc.val
  let col := if k = 0 ∨ f.enc.val < 2 then x else x / 2
  (((comps.getD k []).getD col 0).toNat % 2 ^ bits) * 2 ^ (12 - bits)

/-- The conversion matrix of a path and its pre-blend LUT (steps 3 and 4 of R302). -/
def State.convert (s : State) (x : Nat) (a : Nat → Nat) (j : Nat) : Nat :=
  let sum := ((List.range 3).map (fun k => s.sfld F.INP_MAT_M x (3 * j + k) * ((a k : Int) - s.sfld F.INP_OFS_PRE x k))).sum
  s.lutMap x j (clampInt 0 4095 (roundShift sum 12 + s.sfld F.INP_OFS_POST x j)).toNat

/-- The processing values of a decoded line by component (R302). -/
def State.processLine (s : State) (x : Nat) (f : VideoFormat) (comps : List (List (BitVec 12))) : List (List Nat) :=
  (List.range 3).map (fun j => (List.range f.hact.toNat).map (fun u => s.convert x (fun k => lineSample f comps k u) j))

/-- The substitute colour of a path (R306). -/
def State.substitute (s : State) (x j : Nat) : Nat :=
  if s.bit F.INP_SUBST1_CUSTOM x then [s.fld F.INP_SUBST0_C0 x, s.fld F.INP_SUBST0_C1 x, s.fld F.INP_SUBST1_C2 x].getD j 0
  else if s.bit F.INP_CTRL_PSPACE x ∧ j ≠ 0 then 2048 else 0

/-- The 10-bit value of a processing value (R303). -/
def v10 (v : Nat) : Nat := (min (roundShift v 2) 1023).toNat

/-- The 8-bit value of a processing value (R303). -/
def v8 (v : Nat) : Nat := (min (roundShift v 4) 255).toNat

/-! ### Users of a sink -/

/-- Whether path `x` is enabled on sink `i`. -/
def State.uses (s : State) (x i : Nat) : Bool := s.bit F.INP_CTRL_EN x && s.fld F.INP_CTRL_SRC x == i

/-- Whether path `x` takes its lines from sink `i` at release, in locked mode (R299, R316). (DEDUCED, log entry 53.) -/
def State.lockedUser (s : State) (x i : Nat) : Bool := s.uses x i && !s.bit F.INP_CTRL_MODE x

/-- Whether path `x` writes references of sink `i` (R310). -/
def State.refUser (s : State) (x i : Nat) : Bool := s.refOn x && s.fld F.INP_CTRL_SRC x == i

/-! ### INPUT lock (R354) -/

/-- Whether a raster is locked to a path that takes sink `i`. -/
def State.inputLocked (s : State) (r i : Nat) : Bool :=
  s.running r && s.frc F.TMG_CTRL_LOCK r == 1 && s.fld F.INP_CTRL_SRC (s.frc F.TMG_CTRL_LPATH r) == i

/-- The first line of the layer a path feeds. -/
def State.pathTop (s : State) (x : Nat) : Nat :=
  if s.pathRaster x = 1 then s.frc F.CMP_TKO_POS_Y else match s.layerOf x with
    | some l => s.frc F.LAY_POS_Y l
    | none => 0

/-- The lock error e in lines at the end of an input frame whose line 0 was complete at `t0` (R354).
(DESIGN CHOICE, log entry 59.) -/
def State.lockError (s : State) (r t0 : Nat) : Rat :=
  let x := s.frc F.TMG_CTRL_LPATH r
  let vt := s.frc F.TMG_V_VTOTAL r
  let from_ : Int := (vt : Int) - s.frc F.TMG_V_VACT r + (s.raster r).adj + s.pathTop x - 2 - s.windowOf x - s.frc F.TMG_LOCK_TARGET r
  let e : Rat := ((((s.raster r).boundaryAt : Int) - t0 : Int) : Rat) * (s.frc F.TMG_PCLK_KHZ r : Nat) / ((s.frc F.TMG_H_HTOTAL r * 1000000 : Nat) : Rat)
    + (from_ : Rat)
  e - (vt : Rat) * (ratRound (e / (vt : Rat)) : Rat)

/-- Sets or clears LOCKED, with its event. (DEDUCED, log entry 60.) -/
def State.setLocked (s : State) (r : Nat) (on : Bool) : State :=
  if s.bit F.TMG_STATUS_LOCKED r = on then s
  else (s.setFld F.TMG_STATUS_LOCKED (if on then 1 else 0) r).setBit (if on then F.TMG_EVT_LOCK_GAINED else F.TMG_EVT_LOCK_LOST) 0 r

/-- INPUT_LOCK_ADJUST at a complete input frame (R354): within a line of the input the pixel clock is trimmed, beyond it the next front
porch is adjusted. (DESIGN CHOICE, log entry 234.) -/
def State.lockAdjust (s : State) (i t0 : Nat) : State :=
  [0, 1].foldl (fun s r =>
    if !s.inputLocked r i then s
    else
      let e := s.lockError r t0
      let near := decide (-1 ≤ e) && decide (e ≤ 1)
      let lim : Rat := ((min 500 (s.frc F.TMG_LOCK_TRIM_PPM r) : Nat) : Rat) / 1000000
      let trim : Rat := if near then clampRat (-lim) lim (e / ((s.frc F.TMG_V_VTOTAL r : Nat) : Rat)) else 0
      let step : Int := (s.frc F.TMG_LOCK_VFP_STEP r : Nat)
      let low : Int := (s.frc F.TMG_VFPMIN_LINES r : Int) - s.frc F.TMG_VS_VFP r
      let adj : Int := if near then 0 else max low (clampInt (-step) step (-(ratRound e)))
      let s := (s.setFld F.TMG_ERR_ERR (lowBits 16 (clampInt (-32768) 32767 (ratRound (16 * e)))) r).setFld F.TMG_STATUS_HOLDOVER 0 r
      { s with rasters := s.rasters.put r { s.raster r with adjNext := adj }, tu := { s.tu with trim := s.tu.trim.set r 0 trim } }.setLocked r near) s

/-- The input of a locked raster is lost: it holds its last period (R32, R354). -/
def State.inputLost (s : State) (i : Nat) : State :=
  [0, 1].foldl (fun s r => if s.inputLocked r i then (s.setFld F.TMG_STATUS_HOLDOVER 1 r).setLocked r false else s) s

/-! ### Reference and pyramid writers (R310 to R313) -/

/-- The base address of reference buffer `i` (R310). -/
def State.refBase (s : State) (x i : Nat) : Nat :=
  s.fld F.MOT_REF_LO_ADDR x * 4096 + s.fld F.MOT_REF_HI_ADDR x * 2 ^ 32 + i * s.fld F.MOT_REF_STRIDE_PAGES x * 4096

/-- The newest valid reference. -/
def Mot.newest (m : Mot) : Option Nat :=
  [0, 1, 2, 3].foldl (fun best i =>
    let b := m.bufs.look i {}
    if !b.valid then best
    else match best with
      | some k => if (m.bufs.look k {}).time < b.time then some i else best
      | none => some i) none

/-- The buffer the writer takes for a new frame (R312): the oldest, empty ones first, that neither the last record nor the newest
reference needs. (DEDUCED, log entry 62.) -/
def Mot.choose (m : Mot) : Option Nat :=
  let free := [0, 1, 2, 3].filter (fun i => !(m.some_ && (i == m.a || i == m.b)) && m.newest != some i)
  let rank (i : Nat) : Nat := let b := m.bufs.look i {}; (if b.valid then 2 ^ 64 else 0) + b.order
  free.foldl (fun best i => match best with
    | some k => if rank i < rank k then some i else best
    | none => some i) none

/-- REFERENCE_BUFFER_CHOICE at a frame's first line (R312). -/
def State.chooseRef (s : State) (x : Nat) (f : VideoFormat) : State :=
  let m := { s.motOf x with block := [], blockRow := 0, pyr := [], pyrRow := [] }
  match m.choose with
  | none => ((s.setMot x { m with writing := none }).addSat F.MOT_DROPS_COUNT 1 x).setBit F.MOT_EVT_DROP 0 x
  | some i =>
    s.setMot x { m with
      bufs := m.bufs.put i { width := f.hact.toNat, height := f.vact.toNat, order := m.orderNext }
      writing := some i, orderNext := m.orderNext + 1 }

/-- The samples of one block, from up to four rows of processing values (R310): luma, then the chroma planes, edges
replicated. -/
def blockSamples (fmt : Nat) (rows : List (List (List Nat))) (bx width : Nat) : List Nat :=
  let at_ (j u y : Nat) : Nat := ((rows.getD (min y (rows.length - 1)) []).getD j []).getD (min (64 * bx + u) (width - 1)) 0
  let plane (j : Nat) : List Nat := (List.range 256).map (fun n => v10 (at_ j (n % 64) (n / 64)))
  let mean (j : Nat) : List Nat := (List.range 64).map (fun n =>
    let u := 2 * (n % 32); let y := 2 * (n / 32)
    v10 (roundShift ((at_ j u y + at_ j (u + 1) y + at_ j u (y + 1) + at_ j (u + 1) (y + 1) : Nat) : Int) 2).toNat)
  if fmt = 0 then plane 0 ++ mean 1 ++ mean 2 else plane 0 ++ plane 1 ++ plane 2

/-- Writes a block row of a reference (R310). -/
def State.writeBlocks (s : State) (x i width row : Nat) (rows : List (List (List Nat))) : State :=
  let fmt := s.fld F.MOT_CTRL_REF_FMT x
  let n := refBlock fmt
  let across := (width + 63) / 64
  (List.range across).foldl (fun s bx =>
    let a := s.refBase x i + (row * across + bx) * n
    let samples := blockSamples fmt rows bx width
    let bytes := Config.ubsalFEncode fmt samples
    let s := s.setMot x { s.motOf x with samples := (s.motOf x).samples.put a samples }
    if s.inHyper a n then s.putBytes 0 a false ((List.range n).map (fun k => bytes.getD k 0)) else s) s

/-- The row of a pyramid level from two rows of the level below (R313). -/
def halve (a b : List Nat) : List Nat :=
  (List.range ((a.length + 1) / 2)).map (fun u =>
    let v (l : List Nat) (c : Nat) : Nat := l.getD (min c (a.length - 1)) 0
    (roundShift ((v a (2 * u) + v a (2 * u + 1) + v b (2 * u) + v b (2 * u + 1) : Nat) : Int) 2).toNat)

/-- The address of a row of a level of pyramid buffer `i` (R313). -/
def State.pyrAddr (s : State) (x i width height lev row : Nat) : Nat :=
  let dim (n l : Nat) : Nat := (n + 2 ^ l - 1) / 2 ^ l
  let pitch (l : Nat) : Nat := (dim width l + 255) / 256 * 256
  let first := s.fld F.MOT_CTRL_PYR_FIRST x
  s.fld F.MOT_PYR_BASE_ADDR x * 256 + i * (s.fld F.MOT_PYR_STRIDE_BYTES x * 256) +
    ((List.range' first (lev - first)).map (fun l => dim height l * pitch l)).sum + row * pitch lev

/-- Gives a row to pyramid level `lev`; two rows, or the last row twice, make a row of it, which goes on to the next level
(R313).  `n` counts the levels left. -/
def State.pyrPush (s : State) (x i width height : Nat) (last : Bool) : Nat → Nat → List Nat → State
  | 0, _, _ => s
  | n + 1, lev, row =>
    let m := s.motOf x
    match m.pyr.look lev [], last with
    | [], false => s.setMot x { m with pyr := m.pyr.put lev row }
    | wait, _ =>
      let out := if wait.isEmpty then halve row row else halve wait row
      let y := m.pyrRow.look lev 0
      let s := s.setMot x { m with pyr := m.pyr.put lev [], pyrRow := m.pyrRow.put lev (y + 1) }
      let a := s.pyrAddr x i width height lev y
      let s := if s.fld F.MOT_CTRL_PYR_FIRST x ≤ lev ∧ lev ≤ s.fld F.MOT_CTRL_PYR_LAST x ∧ storeOf a = some 1 then
          s.putServed 33 a false (out.map (BitVec.ofNat 8))
        else s
      State.pyrPush s x i width height last n (lev + 1) out

/-- A line goes to the reference and pyramid writers of path `x` (R310, R313). -/
def State.writeRef (s : State) (x line : Nat) (f : VideoFormat) (comps : List (List (BitVec 12))) : State :=
  match (s.motOf x).writing with
  | none => s
  | some i =>
    let vals := s.processLine x f comps
    let last := line + 1 == f.vact.toNat
    let m := s.motOf x
    let rows := m.block ++ [vals]
    let s := if last ∨ line % 4 = 3 then
        (s.writeBlocks x i f.hact.toNat (line / 4) rows).setMot x { m with block := [], blockRow := line / 4 + 1 }
      else s.setMot x { m with block := rows }
    s.pyrPush x i f.hact.toNat f.vact.toNat last 5 1 ((vals.getD 0 []).map v8)

/-! ### Sink ports (R297 to R301) -/

/-- Sets or clears VIDEO, with its event (R300). -/
def State.setVideo (s : State) (i : Nat) (on : Bool) : State :=
  if s.bit F.SNK_STATUS_VIDEO i = on then s
  else (s.setFld F.SNK_STATUS_VIDEO (if on then 1 else 0) i).setBit F.SNK_EVT_VIDEO 0 i

/-- Ends a frame under way as bad (R300, R312). (DESIGN CHOICE, log entry 57.) -/
def State.endBad (s : State) (i : Nat) : State :=
  if !(s.sink i).inFrame then s
  else
    let s := ((s.setSink i { s.sink i with inFrame := false }).addSat F.SNK_BAD_COUNT 1 i).setBit F.SNK_EVT_FRAME_BAD 0 i
    [0, 1].foldl (fun s x => if s.refUser x i then s.setMot x { s.motOf x with writing := none } else s) s

/-- Ends a frame as complete: FRAMES, PERIOD, VIDEO, its reference, and the INPUT lock (R300, R312, R354).
(DESIGN CHOICE, log entries 57 and 58.) -/
def State.endGood (s : State) (i : Nat) : State :=
  let k := s.sink i
  let at_ := (s.time :: k.doneAt).take 17
  let s := (s.setSink i { k with inFrame := false, doneAt := at_ }).addWrap F.SNK_FRAMES_COUNT 1 i
  let s := if at_.length < 2 then s
    else s.setFld F.SNK_PERIOD_NS (((at_.getD 0 0) - (at_.getD (at_.length - 1) 0)) / (at_.length - 1)) i
  let s := s.setVideo i true
  let s := [0, 1].foldl (fun s x =>
    match s.refUser x i, (s.motOf x).writing with
    | true, some b =>
      let m := s.motOf x
      (s.setMot x { m with writing := none, bufs := m.bufs.put b { m.bufs.look b {} with valid := true, time := s.ntInt } }).addWrap
        F.MOT_REFS_COUNT 1 x
    | _, _ => s) s
  s.lockAdjust i k.firstAt

/-- DSC decode and VIDEO as the sink's format and what it accepts give them (R298, R300, R320). -/
def State.noteFormat (s : State) (i : Nat) (f : VideoFormat) : State :=
  let s := s.setFld F.SNK_STATUS_DSC (if f.dsc && s.accepts i f then 1 else 0) i
  if s.accepts i f then s else s.setVideo i false

/-- The link reports a format (R298, R300). (DESIGN CHOICE, log entry 55.) -/
def State.setFormat (s : State) (i : Nat) (f : VideoFormat) : State :=
  let s := if (s.sink i).fmt = some f then s
    else
      let s := (s.endBad i).setSink i { (s.endBad i).sink i with fmt := some f }
      let s := (s.setBit F.SNK_EVT_FORMAT 0 i).wr .SNK_TIMING (BitVec.ofNat 32 (f.hact.toNat + f.vact.toNat * 65536)) i
      (s.setFld F.SNK_STATUS_ENC f.enc.val i).setFld F.SNK_STATUS_BPC f.bpc.val i
  s.noteFormat i f

/-- HDCP encryption and content type of a sink, with their event (R320). -/
def State.setSinkHdcp (s : State) (i : Nat) (encrypted type1 : Bool) : State :=
  if s.bit F.SNK_STATUS_ENCRYPTED i = encrypted ∧ s.bit F.SNK_STATUS_TYPE1 i = type1 then s
  else ((s.setFld F.SNK_STATUS_ENCRYPTED (if encrypted then 1 else 0) i).setFld F.SNK_STATUS_TYPE1 (if type1 then 1 else 0) i).setBit
    F.SNK_EVT_HDCP 0 i

/-- The link of a sink is lost (R300, R32): nothing is decoded or decrypted without one. -/
def State.sinkLost (s : State) (i : Nat) : State :=
  if !s.bit F.SNK_STATUS_RATE i then s
  else
    let s := (((s.endBad i).setFld F.SNK_STATUS_RATE 0 i).setBit F.SNK_EVT_LINK 0 i).setVideo i false
    ((s.setFld F.SNK_STATUS_DSC 0 i).setSinkHdcp i false false).inputLost i

/-- SINK_LINK_EVENT (R297, R300): the link trains at a rate the sink advertises, is lost, or reports a format or an error. -/
def execSinkLinkEvent (i : Fin 2) (ev : SinkEvent) (s : State) : Host.Outcome State Fault Refusal :=
  done (if !s.bit F.SNK_CTRL_EN i then s
    else match ev with
      | .trained rate f =>
        if rate.val = 0 ∨ min 3 (s.fld F.SNK_CTRL_MAX_RATE i) + 1 < rate.val then s
        else
          let s := ((s.setFld F.SNK_STATUS_RATE rate.val i).setBit F.SNK_EVT_LINK 0 i).setFld F.SNK_COLOR_VALID 0 i
          s.setFormat i f
      | .lost => s.sinkLost i
      | .format f => if s.bit F.SNK_STATUS_RATE i then s.setFormat i f else s
      | .badFrame => s.setSink i { s.sink i with bad := true })

/-- The lines of the ring that some path has still to release (R299). -/
def State.heldLines (s : State) (i : Nat) : List HeldLine := (s.sink i).held.filter (fun h => h.users.any (fun x => s.lockedUser x i))

/-- Lines of a sink's ring: other values act as the nearer limit (R320). -/
def State.lineDepth (s : State) (i : Nat) : Nat := max 4 (min 32 (s.fld F.SNK_LBUF_DEPTH i))

/-- Leaves contents of no stated layout in `n` bytes of the display store, through a port of its own. -/
def State.freeRegion (s : State) (port a n : Nat) : State :=
  let (g, s) := s.draw
  if s.servedBytes a n then (s.turnSpan (.unit port) a n).putWords a false ((List.range (n / 4)).map (Config.freeWord g)) else s

/-- The ring slot the next line takes: the first from the one due that holds no line (R299). -/
def State.ringSlot (s : State) (i : Nat) : Nat :=
  let n := s.lineDepth i
  let due := (s.sink i).slot
  (((List.range n).map (fun k => (due + k) % n)).find? (fun k => (s.heldLines i).all (fun h => h.slot != k))).getD (due % n)

/-- Writes a line into the ring, or drops it where every line is held; answers whether it was written (R299).  A line that no locked
path is still to release is not held: none uses the sink, or the line comes after its substitution in this frame.
(DESIGN CHOICE, log entry 52; DEDUCED, log entry 53.) -/
def State.holdLine (s : State) (i line : Nat) (comps : List (List (BitVec 12))) : Bool × State :=
  let k := s.sink i
  let users := [0, 1].filter (fun x => s.lockedUser x i && !(s.path x).subst.contains (line, k.frameNo))
  let held := s.heldLines i
  if s.lineDepth i ≤ held.length then (false, (s.addSat F.SNK_OVF_COUNT 1 i).setBit F.SNK_EVT_OVERFLOW 0 i)
  else
    let slot := s.ringSlot i
    let s := s.setSink i { k with
      held := if users.isEmpty then held else held ++ [{ line := line, slot := slot, comps := comps, users := users }]
      slot := (slot + 1) % s.lineDepth i }
    (true, s.freeRegion i (storeBase 4 + 256 * s.fld F.SNK_LBUF_BASE i + 46080 * slot) 46080)

/-- The first line of a frame: one still under way ends bad; the reference writers choose their buffers (R300, R312). -/
def State.beginInput (s : State) (i line : Nat) (f : VideoFormat) : State :=
  let s := s.endBad i
  let k := s.sink i
  let s := s.setSink i { k with
    inFrame := true, frameNo := k.frameNo + 1, nextLine := 0, bad := line != 0, firstAt := s.time }
  [0, 1].foldl (fun s x => if s.refUser x i then s.chooseRef x f else s) s

/-- A line goes to the writers of the references of sink `i`; a dropped line leaves them without it, and their buffer stays empty
(R299, R310, R312). (DEDUCED, log entry 53.) -/
def State.feedRefs (s : State) (i line : Nat) (f : VideoFormat) (comps : List (List (BitVec 12))) (written : Bool) : State :=
  [0, 1].foldl (fun s x =>
    if !s.refUser x i then s
    else if written then s.writeRef x line f comps
    else s.setMot x { s.motOf x with writing := none }) s

/-- A decoded line arrives at a sink (R299, R300, R310). (DEDUCED, log entries 53 and 54.) -/
def State.lineArrives (s : State) (i line : Nat) (f : VideoFormat) (comps : List (List (BitVec 12))) : State :=
  let s := if line = 0 ∨ !(s.sink i).inFrame then s.beginInput i line f else s
  let k := s.sink i
  let comps := k.withChroma f line comps
  let s := s.setSink i { k with
    bad := k.bad || line != k.nextLine, nextLine := line + 1, lastLine := s.time, chroma := comps.drop 1 }
  let (written, s) := s.holdLine i line comps
  let s := s.feedRefs i line f comps written
  if line + 1 < f.vact.toNat then s else if (s.sink i).bad then s.endBad i else s.endGood i

/-- SINK_LINE_ARRIVAL (R299). -/
def execSinkLineArrival (i : Fin 2) (line : Nat) (pixels : List (List (BitVec 12))) (s : State) : Host.Outcome State Fault Refusal :=
  done (match (s.sink i).fmt with
    | none => s
    | some f =>
      if s.bit F.SNK_CTRL_EN i && s.accepts i f && s.bit F.SNK_STATUS_RATE i && decide (line < f.vact.toNat) then
        s.lineArrives i line f pixels
      else s)

/-- Whether no active line has arrived for 5 ms (R300). -/
def State.sinkQuiet (s : State) (i : Nat) : Bool := decide (5000000 ≤ s.elapsed (s.sink i).lastLine)

/-- SINK_VIDEO_TIMEOUT (R300, R354); it is due when no active line has arrived for 5 ms. (DESIGN CHOICE, log entry 228.) -/
def execSinkVideoTimeout (i : Fin 2) (s : State) : Host.Outcome State Fault Refusal :=
  done (if s.sinkQuiet i then ((s.endBad i).setVideo i false).inputLost i else s)

/-- VSC_SDP (R297, R301). -/
def execVscSdp (i : Fin 2) (db : BitVec 24) (s : State) : Host.Outcome State Fault Refusal :=
  done (if s.bit F.SNK_STATUS_RATE i then (s.setFld F.SNK_COLOR_VSC db.toNat i).setFld F.SNK_COLOR_VALID 1 i else s)

/-- SECONDARY_DATA_PACKET (R297). -/
def execSecondaryDataPacket (i : Fin 2) (s : State) : Host.Outcome State Fault Refusal :=
  done (if s.bit F.SNK_STATUS_RATE i then s.addSat F.SNK_SDP_DROP_COUNT 1 i else s)

/-- SINK_HDCP_CHANGE (R297, R301): encryption begins only where HDCP is advertised. (DEDUCED, log entry 229.) -/
def execSinkHdcpChange (i : Fin 2) (encrypted type1 : Bool) (s : State) : Host.Outcome State Fault Refusal :=
  done (if !s.bit F.SNK_STATUS_RATE i || (encrypted && !s.bit F.SNK_STATUS_ENCRYPTED i && !s.bit F.SNK_CTRL_HDCP_EN i) then s
    else s.setSinkHdcp i encrypted type1)

/-- A write of SNK_CTRL: a cleared EN takes the link down, and DSC_EN decides on a picture in DSC (R297, R300, R320). -/
def State.writeSnkCtrl (s : State) (i : Nat) (v : Word) : State :=
  let s := s.plainWrite .SNK_CTRL v i
  if !s.bit F.SNK_CTRL_EN i then s.sinkLost i
  else match (s.sink i).fmt with
    | some f => if s.bit F.SNK_STATUS_RATE i then s.noteFormat i f else s
    | none => s

end Sys2Proof.Machine
end

