-- ==== Sys2Proof/Machine/Picture.lean ====
section
/-! DEFINITION. The input stage (R303 to R306, R15), the frame record (R309), the selection of references (R314 to R316), and
the bypass scaler (R307, R308). -/

namespace Sys2Proof.Machine

/-! ### What a path feeds -/

/-- The size of the picture a path takes in: the reference A's in re-timing mode, else its sink's (R304, R307).
(DEDUCED, log entry 66.) -/
def State.inputSize (s : State) (x : Nat) : Nat × Nat :=
  let m := s.motOf x
  if s.bit F.INP_CTRL_MODE x ∧ m.some_ then let b := m.bufs.look m.a {}; (b.width, b.height)
  else match (s.sink (s.fld F.INP_CTRL_SRC x)).fmt with
    | some f => (f.hact.toNat, f.vact.toNat)
    | none => match s.layerOf x with
      | some l => (s.frc F.LAY_SIZE_W l / (s.factors x).1, s.frc F.LAY_SIZE_H l / (s.factors x).2)
      | none => (0, 0)

/-- The rectangle of the layer a path feeds: X, Y, W, H (R326, R357). -/
def State.pathRect (s : State) (x : Nat) : Option (Nat × Nat × Nat × Nat) :=
  if s.pathRaster x = 1 then
    let (w, h) := s.inputSize x
    some (s.frc F.CMP_TKO_POS_X, s.frc F.CMP_TKO_POS_Y, w * (s.factors x).1, h * (s.factors x).2)
  else match s.layerOf x with
    | some l => some (s.frc F.LAY_POS_X l, s.frc F.LAY_POS_Y l, s.frc F.LAY_SIZE_W l, s.frc F.LAY_SIZE_H l)
    | none => none

/-- Whether the layer a path feeds is transparent in this frame (R31, R306, R315, R327). -/
def State.pathHidden (s : State) (x : Nat) : Bool :=
  !s.bit F.INP_CTRL_EN x || (s.path x).sizeBad || (if s.bit F.INP_CTRL_MODE x then (s.motOf x).transp else (s.path x).noVideo)

/-! ### Tensor rows (R303, R304) -/

/-- Whether the tensor ring is written: TENS, with the ring and its counts in the activation store (R304, R322). -/
def State.tensOn (s : State) (x : Nat) : Bool :=
  s.bit F.INP_CTRL_TENS x && storeOf (s.fld F.INP_RING_BASE_ADDR x * 256) == some 1 && storeOf (s.fld F.INP_COUNT_BASE_ADDR x * 4) == some 1

/-- The slots of a path's ring. -/
def State.ringSlots (s : State) (x : Nat) : Nat := s.fld F.INP_RING_CFG_SLOTS x + 1

/-- The fill word of the slot of row `n`. -/
def State.rowFill (s : State) (x n : Nat) : Nat :=
  s.fld F.INP_COUNT_BASE_ADDR x * 4 + (n % s.ringSlots x) * s.fld F.INP_COUNT_STRIDE_BYTES x

/-- Whether the slot of row `n` has drained: its drain count is at least r × D (R304). -/
def State.rowDrained (s : State) (x n : Nat) : Bool × State :=
  let a := s.rowFill x n + 4
  if !s.storeOk a 1 then (false, s)
  else
    let ((w, p), s) := (s.turnFor (.unit 32) a).getWord 32 a
    (!p && condHolds 4 w (BitVec.ofNat 32 (n / s.ringSlots x * max 1 (s.fld F.INP_RING_CFG_D x))), s)

/-- The bytes of plane `c` of a line in the path's layout (R303). -/
def planeBytes (p4 : Bool) (vals : List (List Nat)) (c : Nat) : List Byte :=
  if p4 then
    (List.range (vals.getD 0 []).length).map (fun u => BitVec.ofNat 8 (p4Byte (fun j => v10 ((vals.getD j []).getD u 0)) c))
  else (vals.getD c []).map (fun v => BitVec.ofNat 8 (v8 v))

/-- Writes the data of row `n` (R303, R304). -/
def State.writeRowData (s : State) (x n : Nat) (vals : List (List Nat)) : State :=
  let p4 := s.bit F.INP_CTRL_TFMT x
  let slot := s.fld F.INP_RING_BASE_ADDR x * 256 + (n % s.ringSlots x) * (s.fld F.INP_SLOT_STRIDE_BYTES x * 256)
  (List.range (if p4 then 4 else 3)).foldl (fun s c =>
    s.putServed 32 (slot + c * (s.fld F.INP_PLANE_STRIDE_BYTES x * 256)) false (planeBytes p4 vals c)) s

/-- Writes the fill word of row `n` with r + 1 (R304). -/
def State.writeFill (s : State) (x n : Nat) (poison : Bool) : State :=
  let a := s.rowFill x n
  if s.storeOk a 1 then (s.turnFor (.unit 32) a).putWord a (BitVec.ofNat 32 (n / s.ringSlots x + 1)) poison else s

/-- The release of row `n` to the tensor ring (R304): its data, unless they are written already, then its fill word; where the
slot has not drained, the fill word alone, poisoned. -/
def State.releaseTensor (s : State) (x n : Nat) (vals : List (List Nat)) : State :=
  let p := s.path x
  if p.written.contains n then (s.setPath x { p with written := p.written.filter (fun m => m != n) }).writeFill x n false
  else
    let (ok, s) := s.rowDrained x n
    if ok then (s.writeRowData x n vals).writeFill x n false
    else ((s.writeFill x n true).addSat F.INP_OVR_COUNT 1 x).setBit F.INP_EVT_OVERRUN 0 x

/-! ### Rows -/

/-- A row of the selected reference: A for PHASE below 32,768, else B (R316); values nothing defines where there is no
reference. -/
def State.refRow (s : State) (x row width : Nat) : List (List Nat) × State :=
  let m := s.motOf x
  let i := if m.phase < 32768 then m.a else m.b
  if m.some_ then ((List.range 3).map (fun j => (List.range width).map (fun u => 4 * s.refSample x i j u row)), s)
  else
    let (g, s) := s.draw
    ((List.range 3).map (fun j => (List.range width).map (fun u => Config.freeNat g (3 * u + j) % 4096)), s)

/-- The held line a path's row `row` takes (R299). -/
def State.heldFor (s : State) (x row : Nat) : Option HeldLine :=
  (s.sink (s.fld F.INP_CTRL_SRC x)).held.find? (fun h => h.line == row && h.users.contains x)

/-- Takes path `x` off a list of held lines up to the one it takes; a line no path waits for leaves the ring (R299). -/
def freeHeld (x : Nat) (slot : Nat) : List HeldLine → List HeldLine
  | [] => []
  | h :: r =>
    let rest := if h.slot = slot then r else freeHeld x slot r
    let users := h.users.filter (fun y => y != x)
    if users.isEmpty then rest else { h with users := users } :: rest

/-- A line that is not complete at its release is substituted and counted (R306). -/
def State.substituteLine (s : State) (x row width : Nat) : List (List Nat) × State :=
  let i := s.fld F.INP_CTRL_SRC x
  let s := (s.addSat F.INP_MISSING_COUNT 1 x).setBit F.INP_EVT_MISSING 0 x
  let s := { s with pics := s.pics.put x { s.pics.look x {} with missing := (s.pics.look x {}).missing + 1 } }
  let k := s.sink i
  let p := s.path x
  let s := if k.inFrame ∧ k.nextLine ≤ row then s.setPath x { p with subst := (row, k.frameNo) :: p.subst } else s
  ((List.range 3).map (fun j => List.replicate width (s.substitute x j)), s)

/-- The processing values of row `row` at its release (R302, R306, R316). -/
def State.rowValues (s : State) (x row width : Nat) : List (List Nat) × State :=
  let i := s.fld F.INP_CTRL_SRC x
  if s.bit F.INP_CTRL_MODE x then s.refRow x row width
  else match s.heldFor x row, (s.sink i).fmt with
    | some h, some f =>
      (s.processLine x f h.comps, s.setSink i { s.sink i with held := freeHeld x h.slot (s.sink i).held })
    | _, _ => s.substituteLine x row width

/-- Releases the next row of a path (R15, R304, R306). -/
def State.releaseRow (s : State) (x : Nat) : State :=
  let p := s.path x
  let (vals, s) := s.rowValues x p.next p.width
  let p' := s.path x
  let s := s.setPath x { p' with next := p'.next + 1, rows := p'.rows.put p.next vals }
  if s.tensOn x then s.releaseTensor x (p.base + (p.next : Int)).toNat vals else s

/-- The layer line at whose release instant row `j` is released (R15, R308). -/
def State.releaseLine (s : State) (x j : Nat) : Nat :=
  match (s.pics.look x {}).plan with
  | some p =>
    let of_ (d : Nat × Nat) : Nat := if j ≤ d.1 then 0 else (j - d.1) * 2 ^ d.2
    match p.deps with
    | [] => 0
    | d :: r => r.foldl (fun m e => min m (of_ e)) (of_ d)
  | none => if j ≤ 1 then 0 else (j - 1) * (s.factors x).2

/-- Releases every row whose instant has come (R15); `n` bounds their number.
(DEDUCED, log entry 65; DESIGN CHOICE, log entry 156.) -/
def State.releaseRows (s : State) (x k : Nat) : Nat → State
  | 0 => s
  | n + 1 =>
    let p := s.path x
    if p.next < p.height ∧ s.releaseLine x p.next ≤ k then State.releaseRows (s.releaseRow x) x k n else s

/-! ### Re-timing (R314, R315) -/

/-- Of the valid references that `ok` admits, the newest or the oldest. -/
def Mot.pick (m : Mot) (newest : Bool) (ok : Int → Bool) : Option Nat :=
  [0, 1, 2, 3].foldl (fun best i =>
    let b := m.bufs.look i {}
    if !b.valid || !ok b.time then best
    else match best with
      | some k => if (if newest then (m.bufs.look k {}).time < b.time else b.time < (m.bufs.look k {}).time) then some i else best
      | none => some i) none

/-- The quantised phase K / DIV of MOT_CTRL; 17 to 31 act as 16 (R323). -/
def State.phaseDiv (s : State) (x : Nat) : Nat := min 16 (s.fld F.MOT_CTRL_PHASE_DIV x)

/-- REFERENCE_SELECTION (R314, R315): the references, the phase and the flags of the frame; answers K.
(DEDUCED, log entry 63.) -/
def State.selectRefs (s : State) (x : Nat) : Nat × State :=
  let m := s.motOf x
  let tau : Int := s.ntInt - s.fld F.SNK_PERIOD_NS (s.fld F.INP_CTRL_SRC x)
  let on := s.bit F.MOT_CTRL_EN x
  let a := m.pick true (fun t => on && decide (t ≤ tau))
  let b := m.pick false (fun t => on && decide (tau < t))
  let div := s.phaseDiv x
  let time (i : Nat) : Int := (m.bufs.look i {}).time
  let (found, a, b, num, den, hold) : Bool × Nat × Nat × Int × Nat × Bool := match a, b with
    | none, none => (false, 0, 0, 0, 1, false)
    | none, some b => (true, b, b, 0, 1, false)
    | some a, none => (true, a, a, 0, 1, true)
    | some a, some b => (true, a, b, tau - time a, (time b - time a).toNat, false)
  let k0 := (roundDiv (num * div) den).toNat
  let (a, k) := if div ≠ 0 ∧ k0 = div then (b, 0) else (a, if div = 0 then 0 else k0)
  let phase := if div = 0 then min (roundDiv (num * 65536) den).toNat 65535 else (roundDiv ((65536 * k : Nat) : Int) div).toNat
  let expired := m.expired && hold
  let transp := !found || expired
  let start := hold && !m.hold
  let s := if start then s.setBit F.MOT_EVT_HOLD_START 0 x else s
  let s := s.setMot x { m with
    a := a, b := b, phase := phase, some_ := found, hold := hold, holdSince := if start then s.time else m.holdSince
    expired := expired, transp := transp }
  let s := ((s.setFld F.MOT_STATUS_A a x).setFld F.MOT_STATUS_B b x).setFld F.MOT_STATUS_HOLD (if hold then 1 else 0) x
  (k, s.setFld F.MOT_STATUS_TRANSP (if s.pathHidden x then 1 else 0) x)

/-- Whether HOLD has been set in every frame record for MOT_HOLD ms; 0 acts as 1 (R315, R323). -/
def State.holdOver (s : State) (x : Nat) : Bool :=
  (s.motOf x).hold && decide (max 1 (s.fld F.MOT_HOLD_MS x) * 1000000 ≤ s.elapsed (s.motOf x).holdSince)

/-- HOLD_EXPIRY (R315). (DESIGN CHOICE, log entry 228; DEDUCED, log entry 64.) -/
def execHoldExpiry (x : Fin 2) (s : State) : Host.Outcome State Fault Refusal :=
  let m := s.motOf x
  done (if s.holdOver x && !m.expired then (s.setMot x { m with expired := true }).setBit F.MOT_EVT_HOLD_EXPIRED 0 x else s)

/-! ### The frame record (R309) -/

/-- Writes the frame record of a path at Rel(0) (R309). -/
def State.writeRecord (s : State) (x k : Nat) : State :=
  let p := s.path x
  let a := s.fld F.INP_REC_ADDR x * 32
  let (rd, wr) : Word × Word := match p.maps with
    | none => (s.rd .INP_MAP_A x &&& 0xFFFFFF00, s.rd .INP_MAP_B x &&& 0xFFFFFF00)
    | some (r, w) => (w, r)
  let s := s.setPath x { p with maps := some (rd, wr) }
  let m := s.motOf x
  let re := s.bit F.INP_CTRL_MODE x
  let flag (b : Bool) (i : Nat) : Nat := if b then 2 ^ i else 0
  let refs : List Nat := if re then [m.a + m.b * 256 + flag m.hold 16 + 2 ^ 17 + flag (s.pathHidden x) 18, m.phase + k * 2 ^ 16 + s.phaseDiv x * 2 ^ 24,
      s.refBase x m.a / 256, s.refBase x m.b / 256, 0]
    else [flag (s.pathHidden x) 18, 0, 0, 0, 0]
  let words := [(s.raster (s.pathRaster x)).seq, rd, wr] ++ refs.map (BitVec.ofNat 32)
  if storeOf a = some 1 ∧ s.storeOk a 8 then (s.turnFor (.sys 3 0) a).putWords a false words else s

/-! ### The release instant -/

/-- Whether the sink of path `x` has delivered the start of a complete frame aligned to the raster (R31): its line 0 waits for its
release, and no line of the frame under way has been bad or can have been dropped. (DEDUCED, log entry 230.) -/
def State.frameAligned (s : State) (x : Nat) : Bool :=
  let i := s.fld F.INP_CTRL_SRC x
  let k := s.sink i
  s.bit F.SNK_STATUS_VIDEO i && k.inFrame && !k.bad && decide (k.nextLine ≤ s.lineDepth i) && (s.heldFor x 0).isSome

/-- Rel(0): the end of an input's absence, the references of the frame, its record, and its place in the row sequence (R31, R304, R309,
R314). -/
def State.beginRows (s : State) (x : Nat) : State :=
  let s := s.setPath x { s.path x with noVideo := (s.path x).noVideo && !s.frameAligned x }
  let (k, s) := if s.bit F.INP_CTRL_MODE x then s.selectRefs x else (0, s)
  let s := s.writeRecord x k
  let (w, h) := s.inputSize x
  let p := s.path x
  s.setPath x { p with started := true, width := w, height := h, base := (p.j : Int), j := p.j + h, next := 0, rows := [], subst := [] }

/-- RELEASE_INSTANT of raster line `n` for path `x` (R12, R15, R304, R309). -/
def execReleaseInstant (x : Fin 2) (n : Nat) (s : State) : Host.Outcome State Fault Refusal :=
  done (match s.pathRect x with
    | none => s
    | some (_, y, _, h) =>
      if !s.running (s.pathRaster x) || !s.bit F.INP_CTRL_EN x || decide (n < y ∨ y + h ≤ n) then s
      else
        let k := n - y
        let s := if k = 0 ∧ !(s.path x).started then s.beginRows x else s
        if (s.path x).started then s.releaseRows x k (s.path x).height else s)

/-- The row of a frame that sequence number `j` names, where it can be available: a row of this frame still to be released, or
in locked mode one of the next frame (R304, R316). -/
def State.rowOf (s : State) (x j : Nat) : Option Nat :=
  let p := s.path x
  if p.started ∧ j < p.j then
    let row := ((j : Int) - p.base).toNat
    if (j : Int) < p.base ∨ row < p.next ∨ (s.bit F.INP_CTRL_MODE x ∧ p.next + 16 ≤ row) then none else some row
  else if s.bit F.INP_CTRL_MODE x then none else some (j - p.j)

/-- INPUT_ROW_WRITE: the data of row `j` are written ahead of its release once the row is available and its slot has drained
(R304). -/
def execInputRowWrite (x : Fin 2) (j : Nat) (s : State) : Host.Outcome State Fault Refusal :=
  done (if !s.bit F.INP_CTRL_EN x || !s.tensOn x || (s.path x).written.contains j then s
    else match s.rowOf x j with
      | none => s
      | some row =>
        let re := s.bit F.INP_CTRL_MODE x
        match re, s.heldFor x row, (s.sink (s.fld F.INP_CTRL_SRC x)).fmt with
        | false, none, _ => s
        | false, _, none => s
        | true, _, _ =>
          let (vals, s) := s.refRow x row (s.path x).width
          let (ok, s) := s.rowDrained x j
          if ok then (s.writeRowData x j vals).setPath x { s.path x with written := j :: (s.path x).written } else s
        | false, some h, some f =>
          let (ok, s) := s.rowDrained x j
          if ok then (s.writeRowData x j (s.processLine x f h.comps)).setPath x { s.path x with written := j :: (s.path x).written } else s)

/-! ### Bypass scaler (R307, R308) -/

/-- The taps of output position `n` at factor `f`: input positions with their weights over 2 f (R307). -/
def taps (f n size : Nat) (bilinear : Bool) : List (Nat × Nat) :=
  let x := n / f
  let d : Int := 2 * ((n % f : Nat) : Int) + 1 - f
  let e := if bilinear then d.natAbs else 0
  let other : Int := clampInt 0 ((size : Int) - 1) ((x : Int) + (if 0 < d then 1 else if d < 0 then -1 else 0))
  [(min x (size - 1), 2 * f - e), (other.toNat, e)]

/-- A processing value of a row of the frame; a row that is not released has no stated contents.
(DESIGN CHOICE, log entry 83.) -/
def InPath.sample (p : InPath) (row u c : Nat) : Nat :=
  if p.rows.has row then ((p.rows.look row []).getD c []).getD u 0 else Config.freeNat 0 (65536 * row + 3 * u + c) % 4096

/-- Component `c` of column `u` of layer line `k` from the bypass scaler, as a 10-bit value (R307).
(DESIGN CHOICE, log entry 83.) -/
def State.bypassValue (s : State) (x k u c : Nat) : Nat :=
  let p := s.path x
  let (fh, fv) := s.factors x
  let bil := s.bit F.INP_BYP_FILTER x
  let sum := ((taps fv k p.height bil).map (fun ty =>
    ((taps fh u p.width bil).map (fun tx => ty.2 * tx.2 * p.sample ty.1 tx.1 c)).sum)).sum
  v10 (roundDiv (sum : Int) (4 * fh * fv)).toNat

/-- The bypass line of layer line `k`, `w` columns wide: its 10-bit components, written into the bypass ring as P4 (R16, R307,
R308). -/
def State.bypassLine (s : State) (x k w : Nat) : List (List Nat) × State :=
  let vals := (List.range 3).map (fun c => (List.range w).map (fun u => s.bypassValue x k u c))
  let plane := 256 * ((w + 255) / 256)
  let base := storeBase 4 + 256 * s.fld F.INP_BYP_BASE x + (k % 4) * (4 * plane)
  (vals, (List.range 4).foldl (fun s c =>
    s.putServed 3 (base + c * plane) false
      ((List.range w).map (fun u => BitVec.ofNat 8 (p4Byte (fun j => (vals.getD j []).getD u 0) c)))) s)

end Sys2Proof.Machine
end

