-- ==== Sys2Proof/Machine/Commit.lean ====
section
/-! DEFINITION. Display-shadowed registers and commits (R347 to R351), the lookup tables (R339, R340), the colour-volume load
(R344), raster timing (R352, R353), and the source ports' links (R338, R346). -/

namespace Sys2Proof.Machine

/-! ### The display shadow (R347) -/

/-- The registers of layer `l`. -/
def layerRegs : List RegId :=
  [.LAY_CTRL, .LAY_POS, .LAY_SIZE, .LAY_ADDR, .LAY_CADDR, .LAY_C2ADDR, .LAY_STRIDE, .LAY_CSTRIDE, .LAY_RING, .LAY_HITCH, .LAY_HITCH_VAL]

/-- The whole registers a mask bit covers, with their instances (R347). -/
def groupRegs (m : Nat) : List (RegId × Nat × Nat) :=
  if m = 0 then
    [(.CMP_BG0, 0, 0), (.CMP_BG1, 0, 0)] ++ [0, 1].flatMap (fun k =>
      (List.range 5).map (fun i => (RegId.SMAT_C, k, i)) ++ [(.SMAT_POST0, k, 0), (.SMAT_POST1, k, 0)])
  else if m < 8 then layerRegs.map (fun r => (r, m, 0))
  else if m = 12 then
    [(.CMP_TKO_BG0, 0, 0), (.CMP_TKO_BG1, 0, 0), (.CMP_TKO_POS, 0, 0)] ++ [0, 1].flatMap (fun o =>
      [(.SRC_CTRL, o, 0), (.SRC_FMT, o, 0), (.SRC_DSC, o, 0), (.SRC_VSC, o, 0), (.SRC_IEN, o, 0)] ++ (List.range 5).map (fun i => (RegId.SRC_MAT, o, i)) ++
        [(.SRC_PRE0, o, 0), (.SRC_PRE1, o, 0), (.SRC_POST0, o, 0), (.SRC_POST1, o, 0)])
  else []

/-- The mask bit of a register that a commit takes whole. -/
def groupOf (r : RegId) (i j : Nat) : Option Nat := (List.range 13).find? (fun m => (groupRegs m).contains (r, i, j))

/-- Whether a pending commit holds mask bit `m`. -/
def State.masked (s : State) (m : Nat) : Bool := s.bit F.CMP_STATUS_PENDING && s.cmp.mask.testBit m

/-- A write of a register whose bits `bits` belong to mask bits of a pending commit: those bits stay, and SHADOW_REJECT is set
(R350). -/
def State.shadowWrite (s : State) (r : RegId) (held v : Word) (i j : Nat) : State :=
  let old := s.rd r i j
  let s := s.plainWrite r ((v &&& ~~~held) ||| (old &&& held)) i j
  if held = 0 then s else s.setBit F.CMP_EVT_SHADOW_REJECT

/-- The bits of LUT_CTRL that LUT `n` has. -/
def lutBits (n : Nat) : Word := BitVec.ofNat 32 (2 ^ n + 2 ^ (4 + n))

/-- The bits of a register that a pending commit holds (R347, R350). -/
def State.heldBits (s : State) (r : RegId) (i j : Nat) : Word :=
  match r with
  | .LUT_CTRL => (List.range 3).foldl (fun m n => if s.masked (8 + n) then m ||| lutBits n else m) 0
  | .CV_CTRL => if s.masked 11 then 1 else 0
  | .SRC_CTRL => if s.masked 12 then 0xC0 else 0
  | r => match groupOf r i j with
    | some m => if s.masked m then 0xFFFFFFFF else 0
    | none => 0

/-- A write of a display-shadowed register (R347, R350); the encryption of a port follows its HDCP_EN (R338). -/
def State.writeDisplay (s : State) (r : RegId) (v : Word) (i j : Nat) : State := s.shadowWrite r (s.heldBits r i j) v i j

/-- Brings a mask bit's registers into force (R349). -/
def State.takeGroup (s : State) (m : Nat) : State :=
  let s := (groupRegs m).foldl (fun s g => s.take g.1 g.2.1 g.2.2) s
  if 8 ≤ m ∧ m ≤ 10 then
    let b := lutBits (m - 8)
    s.wr .LUT_STATUS ((s.rd .LUT_STATUS &&& ~~~b) ||| (s.rd .LUT_CTRL &&& b))
  else if m = 11 then s.setFld F.CV_STATUS_EN (s.fld F.CV_CTRL_EN)
  else s

/-! ### Commits (R348 to R351) -/

/-- A field of layer `l` as it would be after a commit of `mask`. -/
def State.afterCommit (s : State) (mask : Nat) (f : RegField) (l : Nat) : Nat := if mask.testBit l then s.fld f l else s.frc f l

/-- Lines a layer's fetch keeps: other values act as the nearer limit (R362). -/
def fetchDepth (v : Nat) : Nat := max 4 (min 16 v)

/-- The checks of R348 on the shadow of a masked layer, enabled or not (R326, R333). -/
def State.layerOk (s : State) (l : Nat) : Bool :=
  let fmt := s.fld F.LAY_CTRL_FORMAT l
  let sc := 2 ^ s.fld F.LAY_CTRL_SCALE l
  let (x, y) := (s.fld F.LAY_POS_X l, s.fld F.LAY_POS_Y l)
  let (w, h) := (s.fld F.LAY_SIZE_W l, s.fld F.LAY_SIZE_H l)
  decide (s.fld F.LAY_CTRL_KIND l ≠ 3 ∧ fmt ≤ 8 ∧ s.fld F.LAY_CTRL_SCALE l ≠ 3 ∧ s.fld F.LAY_CTRL_MATRIX l ≠ 3 ∧
      ¬(s.fld F.LAY_CTRL_DEPTH l = 3 ∧ 4 ≤ fmt)) &&
    !(s.bit F.LAY_CTRL_UBSAL l && decide (3 < fmt ∨ fetchDepth (s.fld F.LAY_RING_FETCH l) < 8)) &&
    (decide (x % 4 = 0 ∧ w % 4 = 0 ∧ 4 ≤ w ∧ 4 ≤ h ∧ x + w ≤ s.frc F.TMG_H_HACT 0 ∧
      y + h ≤ s.frc F.TMG_V_VACT 0 ∧ w % sc = 0 ∧ h % sc = 0))

/-- Whether a commit of `mask` may become pending (R348). -/
def State.commitOk (s : State) (mask : Nat) (epoch : Bool) : Bool :=
  let shows (x : Nat) : Nat := ((List.range' 1 7).filter (fun l =>
    s.afterCommit mask F.LAY_CTRL_EN l == 1 && s.afterCommit mask F.LAY_CTRL_KIND l == x + 1)).length
  let mode := if mask.testBit 12 then s.fld F.SRC_CTRL_MODE 1 else s.frc F.SRC_CTRL_MODE 1
  !s.bit F.CMP_STATUS_PENDING && ((List.range' 1 7).all (fun l => !mask.testBit l || s.layerOk l)) &&
    decide (shows 0 ≤ 1 ∧ shows 1 ≤ 1) && !(mode == 2 && shows 1 != 0) && (!epoch || s.epochState == 1 || s.epochState == 2)

/-- A write of CMP_COMMIT: CANCEL first, then GO (R348, R350). -/
def State.writeCommit (s : State) (v : Word) : State :=
  let s := s.plainWrite .CMP_COMMIT (v &&& 0x3FFFFFFF)
  let s := if v.getLsbD 30 then (s.setFld F.CMP_STATUS_PENDING 0).setFld F.CMP_STATUS_HELD 0 else s
  if !v.getLsbD 31 then s
  else
    let mask := s.fld F.CMP_COMMIT_MASK
    let epoch := s.bit F.CMP_COMMIT_EPOCH
    if s.commitOk mask epoch then
      { s.wr .CMP_STATUS 1 with cmp := { s.cmp with mask := mask, epoch := epoch, gate := !epoch, fenceLate := false } }
    else s.setBit F.CMP_EVT_REJECT

/-- COMMIT (R348). (DESIGN CHOICE, log entry 75.) -/
def execCommit (value : Word) (s : State) : Host.Outcome State Fault Refusal := done (s.writeCommit (value ||| 0x80000000))

/-- COMMIT_CANCEL (R350). -/
def execCommitCancel (s : State) : Host.Outcome State Fault Refusal :=
  done (s.writeCommit ((s.rd .CMP_COMMIT &&& 0x3FFFFFFF) ||| 0x40000000))

/-- Whether the hitch of layer `l` is released (R349): one read of its word; a word that is not served or poisoned holds.
(DEDUCED, log entry 72.) -/
def State.hitchReleased (s : State) (l : Nat) : Bool × State :=
  let a := storeBase 4 + 4 * s.fld F.LAY_HITCH_ADDR l
  if !(s.storeOk a 1 && storeOf a == some 4) then (false, s)
  else
    let ((w, p), s) := (s.turnFor (.unit 4) a).getWord 4 a
    (!p && decide ((w - s.rd .LAY_HITCH_VAL l).toNat < 2 ^ 31), s)

/-- COMMIT_EVALUATION at a boundary of raster 0 (R349, R351); `seq` is the number R28 gives there. (DEDUCED, log entry 73.) -/
def State.evaluateCommit (s : State) (seq : Word) : State :=
  if !s.bit F.CMP_STATUS_PENDING || !s.cmp.gate then s
  else
    let mask := s.cmp.mask
    let (held, s) := (List.range' 1 7).foldl (fun (acc : Nat × State) l =>
      if mask.testBit l && acc.2.bit F.LAY_CTRL_HITCH_EN l then
        let (ok, s) := acc.2.hitchReleased l
        (if ok then acc.1 else acc.1 + 2 ^ l, s)
      else acc) (0, s)
    if held = 0 then
      let s := (List.range 13).foldl (fun s m => if mask.testBit m then s.takeGroup m else s) s
      (((s.wr .CMP_APPLY_SEQ seq).setBit F.CMP_EVT_APPLIED).setFld F.CMP_STATUS_PENDING 0).setFld F.CMP_STATUS_HELD 0
    else
      let s := (s.setFld F.CMP_STATUS_HELD 1).addSat F.CMP_STATUS_HELD_FRAMES
      if s.cmp.fenceLate then s
      else
        ({ s with cmp := { s.cmp with fenceLate := true } }.setBit F.CMP_EVT_FENCE_LATE).raise
          { code := 0x12, cls := 7, unit := 0, d0 := BitVec.ofNat 32 mask, d1 := BitVec.ofNat 32 held }

/-! ### Lookup tables (R340, R363) -/

/-- An access to LUT_DATA: the entry is read or written, and INDEX advances; a write to the bank in force, or to no LUT, is
rejected (R340, R363). (DEDUCED, log entry 78; DESIGN CHOICE, log entries 6 and 77.) -/
def State.lutAccess (s : State) (write : Option Word) : State :=
  let (lut, bank, comp, i) := (s.fld F.LUT_SEL_LUT, s.fld F.LUT_SEL_BANK, s.fld F.LUT_SEL_COMP, s.fld F.LUT_SEL_INDEX)
  let there := decide (lut < 3 ∧ comp < 3 ∧ i ≤ 1024)
  let s := match write with
    | none =>
      let (g, s) := s.draw
      { s with readData := if there then BitVec.ofNat 32 (s.lutEntry lut bank comp i) else Config.freeWord g 0 &&& 0x1FFF }
    | some v =>
      if 3 ≤ lut ∨ 3 ≤ comp ∨ bank = s.lutBank lut then s.setBit F.LUT_EVT_REJECT
      else if there then
        { s with cmp := { s.cmp with lut := s.cmp.lut.set (lutKey lut bank comp i) (4 * i) (min (v.toNat % 8192) 4096) } }
      else s
  s.setFld F.LUT_SEL_INDEX (if 1024 ≤ i then 0 else i + 1)

/-- LUT_DATA_ACCESS (R340). -/
def execLutDataAccess (write : Option Word) (s : State) : Host.Outcome State Fault Refusal := done (s.lutAccess write)

/-! ### The colour-volume load (R344, R364) -/

/-- A write of CV_LOAD: GO starts a load; while one runs it is ignored (R344, R364). -/
def State.writeCvLoad (s : State) (v : Word) : State :=
  let s := s.plainWrite .CV_LOAD (v &&& 0x7FFFFFFF)
  if !v.getLsbD 31 || s.bit F.CV_STATUS_LOAD_BUSY then s
  else
    let s := { s with cmp := { s.cmp with
        cvLoad := some { src := (s.rd .CV_SRC).toNat * 256, block := s.fld F.CV_DST_BLOCK, blocks := s.fld F.CV_LOAD_BLOCKS } } }
    (s.setFld F.CV_LOAD_GO 1).setFld F.CV_STATUS_LOAD_BUSY 1

/-- CV_LOAD (R344). -/
def execCvLoad (value : Word) (s : State) : Host.Outcome State Fault Refusal := done (s.writeCvLoad value)

/-- The first address a load of the colour volume writes. -/
def CvLoad.dst (j : CvLoad) : Nat := storeBase 3 + 256 * j.block

/-- Whether a load has its source in HyperRAM and its destination in the store (R344). -/
def State.cvOk (s : State) (j : CvLoad) : Bool := decide (j.blocks ≠ 0 ∧ j.block + j.blocks ≤ 262144) && s.inHyper j.src (256 * j.blocks)

/-- Copies the next `n` blocks of a load (R344). -/
def State.cvCopy (s : State) : Nat → CvLoad → CvLoad × State
  | 0, j => (j, s)
  | n + 1, j =>
    let data := s.bytesAt (j.src + 256 * j.copied) 256
    let a := j.dst + 256 * j.copied
    let s := if s.storeOk a 64 then (s.turnFor (.sys 3 0) a).putWords a false (wordsOfBytes data) else s
    State.cvCopy s n { j with copied := j.copied + 1, crc := crc32cRun j.crc data }

/-- A load goes on while no command comes, by a number of blocks that the spec does not state, in steps it may write in: frames shown
meanwhile find old and new entries (R76, R344). (DESIGN CHOICE, log entry 231.) -/
def State.cvGoOn (s : State) : State :=
  match s.cmp.cvLoad with
  | none => s
  | some j =>
    if s.cvOk j && s.opens j.dst then
      let (g, s) := s.draw
      let (j, s) := s.cvCopy (min (Config.freeNat g 0) (j.blocks - j.copied)) j
      { s with cmp := { s.cmp with cvLoad := some j } }
    else s

/-- CV_LOAD_DONE: the blocks still to come are copied, and CV_CRC is the CRC-32C of all, or LOAD_ERR is set and nothing is copied
(R344). (DEDUCED, log entry 76.) -/
def execCvLoadDone (s : State) : Host.Outcome State Fault Refusal :=
  done (match s.cmp.cvLoad with
    | none => s
    | some j =>
      if !s.opens j.dst then s
      else
        let s := ({ s with cmp := { s.cmp with cvLoad := none } }.setFld F.CV_LOAD_GO 0).setFld F.CV_STATUS_LOAD_BUSY 0
        if s.cvOk j then
          let (j, s) := s.cvCopy (j.blocks - j.copied) j
          (s.wr .CV_CRC (~~~j.crc)).setBit F.CV_EVT_LOAD_DONE
        else s.setBit F.CV_EVT_LOAD_ERR)

/-- A nanosecond in which no command comes: the counter and the wheels, and the work that goes on by itself. -/
def State.passTime (s : State) : State := s.idle.importBurst.cvGoOn

/-! ### Raster timing (R352, R353) -/

/-- The registers of a raster that APPLY brings into force. -/
def timingRegs : List RegId := [.TMG_CTRL, .TMG_H, .TMG_HS, .TMG_V, .TMG_VS, .TMG_PCLK, .TMG_LOCK, .TMG_VFPMIN]

/-- The flip schedule's registers, which APPLY brings into force for its raster as well (R410). -/
def flipRegs : List RegId := [.FLIP_BASE_LO, .FLIP_BASE_HI, .FLIP_NUM, .FLIP_CFG]

/-- Whether a NETWORK-locked raster's nominal period is within 100 ppm of FLIP_NUM / FLIP_DEN (R411). -/
def State.periodOk (s : State) (r : Nat) : Bool :=
  let num := s.fld F.FLIP_NUM_NS * s.fld F.TMG_PCLK_KHZ r
  let ours := s.fld F.TMG_H_HTOTAL r * s.fld F.TMG_V_VTOTAL r * 1000000 * max 1 (s.fld F.FLIP_CFG_DEN)
  s.fld F.TMG_CTRL_LOCK r != 2 || decide (((ours : Int) - num).natAbs * 10000 ≤ num)

/-- Whether the timing in a raster's registers is within R352. -/
def State.timingOk (s : State) (r : Nat) : Bool :=
  let (hact, htot) := (s.fld F.TMG_H_HACT r, s.fld F.TMG_H_HTOTAL r)
  let (hfp, hsync) := (s.fld F.TMG_HS_HFP r, s.fld F.TMG_HS_HSYNC r)
  let (vact, vtot) := (s.fld F.TMG_V_VACT r, s.fld F.TMG_V_VTOTAL r)
  let (vfp, vsync) := (s.fld F.TMG_VS_VFP r, s.fld F.TMG_VS_VSYNC r)
  let khz := s.fld F.TMG_PCLK_KHZ r
  decide (640 ≤ hact ∧ hact ≤ 7680 ∧ htot ≤ 8192 ∧ hact % 4 = 0 ∧ htot % 4 = 0 ∧ hfp % 4 = 0 ∧ hsync % 4 = 0 ∧ hact + 48 ≤ htot ∧
      hact + hfp + hsync + 8 ≤ htot) &&
    decide (480 ≤ vact ∧ vact ≤ 4320 ∧ vtot ≤ 8191 ∧ 1 ≤ vfp ∧ 1 ≤ vsync ∧ vact + vfp + vsync + 1 ≤ vtot) &&
    decide (25000 ≤ khz ∧ khz ≤ (if s.inTakeover then 2200000 else 4400000)) &&
    decide (23976 * (htot * vtot) ≤ 1000000 * khz ∧ 1000 * khz ≤ 120 * (htot * vtot))

/-- The network time at which a raster that an APPLY starts takes its first boundary: its first flip edge then falls at the first F(k)
at least one frame period away (R411); none unless it is locked to network time. (DEDUCED, log entry 242.) -/
def State.startInstant (s : State) (r : Nat) : Option Nat :=
  if s.fld F.TMG_CTRL_LOCK r ≠ 2 then none
  else
    let line : Rat := ((s.fld F.TMG_H_HTOTAL r * 1000000 : Nat) : Rat) / (max 1 (s.fld F.TMG_PCLK_KHZ r) : Nat)
    let base := s.fld F.FLIP_BASE_LO_NS + s.fld F.FLIP_BASE_HI_NS * 2 ^ 32
    let (num, den) := (max 1 (s.fld F.FLIP_NUM_NS), max 1 (s.fld F.FLIP_CFG_DEN))
    let ahead := (Rat.ceil (((s.nt : Nat) : Rat) + ((s.fld F.TMG_V_VTOTAL r : Nat) : Rat) * line - ((base : Nat) : Rat))).toNat
    let k := (ahead * den + num - 1) / num
    let flip := base + k * num / den
    some (lowBits 64 (ratRound ((flip : Rat) - (s.fld F.TMG_VS_VFP r : Rat) * line)))

/-- Brings timing words into force. -/
def State.takeTiming (s : State) (r : Nat) (ws : List Word) : State :=
  ((timingRegs ++ flipRegs).zip ws).foldl (fun (s : State) p =>
    { s with force := s.force.set (regKey p.1 r 0) (regReset p.1 r 0) p.2 }) (s.setFld F.TMG_CTRL_APPLY 0 r)

/-- A write of TMG_CTRL: APPLY leaves the raster's registers for its next frame boundary, or rejects them (R352, R353, R411); its trim integral becomes 0 (R412).  A raster
that is disabled and stands takes them at once, since it has no boundary. (DEDUCED, log entry 71.) -/
def State.writeTmgCtrl (s : State) (r : Nat) (v : Word) : State :=
  let s := s.plainWrite .TMG_CTRL (v &&& 0x7FFFFFFF) r
  if !v.getLsbD 31 then s
  else if !s.timingOk r || !s.periodOk r then s.setBit F.TMG_EVT_REJECT 0 r
  else
    let ws := timingRegs.map (fun q => s.rd q r) ++ flipRegs.map (fun q => s.rd q)
    let s := { s with tu := { s.tu with trimJ := s.tu.trimJ.set r 0 0 } }
    if s.running r || s.bit F.TMG_CTRL_EN r then
      let start := if s.running r then none else if (s.raster r).pend.isSome then (s.raster r).startAt else s.startInstant r
      { s with rasters := s.rasters.put r { s.raster r with pend := some ws, startAt := start } }.setFld F.TMG_CTRL_APPLY 1 r
    else s.takeTiming r ws

/-- TIMING_APPLY (R353). (DEDUCED, log entry 71.) -/
def execTimingApply (r : Fin 2) (value : Word) (s : State) : Host.Outcome State Fault Refusal :=
  done (s.writeTmgCtrl r (value ||| 0x80000000))

/-! ### Source ports (R338, R346, R356) -/

/-- The raster that drives port `o`: raster 1 drives O1 in STANDBY and TAKEOVER (R356). -/
def State.portRaster (s : State) (o : Nat) : Nat := if o = 1 ∧ (s.frc F.SRC_CTRL_MODE 1 = 1 ∨ s.frc F.SRC_CTRL_MODE 1 = 2) then 1 else 0

/-- Bits per pixel of a port's format, in sixteenths: DSC's own, or the encoding's (R346). -/
def State.portBits16 (s : State) (o : Nat) : Nat :=
  if s.frc F.SRC_DSC_EN o = 1 then s.frc F.SRC_DSC_BPP o else pixelBits16 (s.frc F.SRC_FMT_ENC o) (s.frc F.SRC_FMT_BPC o)

/-- Whether a port's format exceeds its trained link (R346). (DESIGN CHOICE, log entry 200.) -/
def State.overRate (s : State) (o : Nat) : Bool :=
  s.bit F.SRC_CTRL_EN o && s.bit F.SRC_STATUS_RATE o &&
    !fitsLink (s.fld F.SRC_STATUS_RATE o) (s.frc F.TMG_PCLK_KHZ (s.portRaster o)) (s.portBits16 o)

/-- Brings OVERRATE up to date, with its event (R346). -/
def State.noteRates (s : State) : State :=
  [0, 1].foldl (fun s o =>
    let now := s.overRate o
    let s := if now && !s.bit F.SRC_STATUS_OVERRATE o then s.setBit F.SRC_EVT_OVERRATE 0 o else s
    s.setFld F.SRC_STATUS_OVERRATE (if now then 1 else 0) o) s

/-- Whether a port encrypts: its session is authenticated and HDCP_EN is set (R338). (DEDUCED, log entry 79.) -/
def State.encrypting (s : State) (o : Nat) : Bool := s.bit F.SRC_STATUS_AUTH o && s.bit F.SRC_CTRL_HDCP_EN o

/-- The link of a source is lost, and its session with it. (DEDUCED, log entry 80.) -/
def State.sourceLost (s : State) (o : Nat) : State :=
  if !s.bit F.SRC_STATUS_RATE o then s
  else ((s.setFld F.SRC_STATUS_RATE 0 o).setFld F.SRC_STATUS_AUTH 0 o).setBit F.SRC_EVT_LINK 0 o

/-- SOURCE_LINK_EVENT (R338, R346, R366). -/
def execSourceLinkEvent (o : Fin 2) (ev : SourceEvent) (s : State) : Host.Outcome State Fault Refusal :=
  done (if !s.bit F.SRC_CTRL_EN o then s
    else (match ev with
      | .hotPlug present => let s := s.setFld F.SRC_STATUS_HPD (if present then 1 else 0) o; if present then s else s.sourceLost o
      | .trained rate =>
        if rate.val = 0 ∨ min 3 (s.fld F.SRC_CTRL_MAX_RATE o) + 1 < rate.val then s
        else (s.setFld F.SRC_STATUS_RATE rate.val o).setBit F.SRC_EVT_LINK 0 o
      | .lost => s.sourceLost o
      | .hdcp auth ok =>
        ((s.setFld F.SRC_STATUS_AUTH (if auth then 1 else 0) o).setFld F.SRC_STATUS_TYPE1_OK (if ok then 1 else 0) o).setBit F.SRC_EVT_HDCP 0 o).noteRates)

/-- A write of SRC_CTRL: MODE is SRC1's alone, and reserved in SRC0; a cleared EN takes the link down; the display store's and colour
volume's bands follow the outputs (R93, R366). (DEDUCED, log entry 232.) -/
def State.writeSrcCtrl (s : State) (o : Nat) (v : Word) : State :=
  let s := s.writeDisplay .SRC_CTRL (if o = 0 then v &&& 0xFFFFFF3F else v) o 0
  let s := if s.bit F.SRC_CTRL_EN o then s else s.sourceLost o
  ((s.startBands 3).startBands 4).noteRates

end Sys2Proof.Machine
end

