-- ==== Sys2Proof/Machine/Compose.lean ====
section
/-! DEFINITION. The stripe-line decision (R18 to R31), the enhanced-line rings (R328 to R330), and surface layers (R331 to
R335). -/

namespace Sys2Proof.Machine

/-! ### Enhanced-line rings (R328, R329) -/

/-- The slot of a stripe-line: its fill word, the fill count that completes it, and its number. -/
structure SlotRef where
  fill : Nat
  need : Word
  slot : Nat
  deriving DecidableEq, Repr

/-- The slot that holds line `k` of the frame for stripe `st` of stream `x` (R217, R328). -/
def State.erSlot (s : State) (x st k : Nat) : SlotRef :=
  let n := s.fld F.ER_CFG_SLOTS x + 1
  let line := (s.pics.look x {}).lineBase + k
  { fill := storeBase 4 + 4 * s.fld F.ER_COUNT_ADDR x + st * (4 * s.fld F.ER_CSKEIN_BYTES x) + (line % n) * s.fld F.ER_CSTRIDE_BYTES x
    need := BitVec.ofNat 32 (line / n + 1), slot := line % n }

/-- Whether a count word of the display store is served. -/
def State.countOk (s : State) (a : Nat) : Bool := storeOf a == some 4 && s.storeOk a 1

/-- Reads a count word through the compositor's port (R19). -/
def State.readCount (s : State) (a : Nat) : (Word × Bool) × State := if s.countOk a then (s.turnFor (.unit 4) a).getWord 4 a else ((0, false), s)

/-- Adds 1 to the drain word beside a fill word (R329). -/
def State.drainSlot (s : State) (fill : Nat) : State := if s.countOk (fill + 4) then ((s.turnFor (.unit 4) (fill + 4)).msPerform 4 (fill + 4) (.add 1)).2 else s

/-- Reads the four planes of a stripe-line in full (R328, R330); data outside the display store count as poisoned. -/
def State.readStripe (s : State) (x st slot : Nat) : (List (List Byte) × Bool) × State :=
  let (start, width) := s.stripeAt x st
  let base := storeBase 4 + 256 * s.fld F.ER_BASE_BASE x + slot * (256 * s.fld F.ER_SLOT_STRIDE_STRIDE x) + 16 * start
  (List.range 4).foldl (fun (acc : (List (List Byte) × Bool) × State) c =>
    let a := base + c * (256 * s.fld F.ER_PLANE_STRIDE_STRIDE x)
    if storeOf a = some 4 ∧ acc.2.servedBytes a (16 * width) then
      let ((l, p), t) := (acc.2.turnSpan (.unit 4) a (16 * width)).getBytes 4 a (16 * width)
      ((acc.1.1 ++ [l], acc.1.2 || p), t)
    else ((acc.1.1 ++ [[]], true), acc.2)) (([], false), s)

/-! ### The decision (R18 to R24) -/

/-- The causes of R22. -/
inductive Cause where
  | forced
  | poisoned
  | late
  | policy
  deriving DecidableEq, Repr

/-- What the compositor finds of a stripe-line: why it shows bypass, whether its slot is complete, the slot, and the data read. -/
structure StripeLook where
  cause : Option Cause
  complete : Bool
  slot : SlotRef
  data : List (List Byte)
  deriving DecidableEq, Repr

/-- Whether a stripe runs FORCED (R22): no plan, an unprepared stream, one bound too late for the frame (R289), SHAPE_OVER, a forced audit, or a core of its skein that
is not bound to it, FAULTED or WITHDRAWN. -/
def State.stripeForced (s : State) (x st : Nat) : Bool :=
  let p := s.pics.look x {}
  match p.plan with
  | none => true
  | some plan =>
    p.unprepared || p.forcedFrame || p.shapeOver || s.tst.forcedStreams.contains x || (plan.cores.getD st []).any (fun c =>
      !(s.bit F.CORE_BIND_VALID c && s.streamOf c == x && s.fld F.CORE_BIND_SKEIN c == plan.skeins.getD st 0) ||
        (s.core c).state == 4 || (s.core c).state == 5 || (s.core c).slotCut)

/-- Looks at stripe-line (k, st) of a stream with a plan: the count is sampled, and data that would be shown are read (R18, R19,
R330). -/
def State.lookStripe (s : State) (x st k : Nat) : StripeLook × State :=
  let r := s.erSlot x st k
  let forced := s.stripeForced x st
  let ((w, p), s) := s.readCount r.fill
  let full := condHolds 4 w r.need
  if full && !forced && !p then
    let ((data, q), s) := s.readStripe x st r.slot
    ({ cause := if q then some .poisoned else none, complete := true, slot := r, data := data }, s)
  else
    ({ cause := some (if forced then .forced else if p then .poisoned else .late), complete := full, slot := r, data := [] }, s)

/-- Looks at every stripe of a line; a stream with no plan counts one stripe, FORCED. -/
def State.lookLine (s : State) (x k : Nat) : List StripeLook × State :=
  match (s.pics.look x {}).plan with
  | none => ([{ cause := some .forced, complete := false, slot := ⟨0, 0, 0⟩, data := [] }], s)
  | some plan =>
    (List.range plan.skeins.length).foldl (fun (acc : List StripeLook × State) st =>
      let (l, t) := acc.2.lookStripe x st k
      (acc.1 ++ [l], t)) ([], s)

/-- Applies the layer's fallback policy (R24): 1 LINE, 2 FRAME, others STRIPE; answers whether a FRAME policy has failed. -/
def applyPolicy (policy : Nat) (failed : Bool) (l : List StripeLook) : List StripeLook × Bool :=
  let bad := l.any (fun e => e.cause.isSome)
  let failed := failed || (policy == 2 && bad)
  let all := (policy == 1 && bad) || (policy == 2 && failed)
  (if all then l.map (fun e => if e.cause = none then { e with cause := some .policy } else e) else l, failed)

/-- Counts a stripe-line under its cause, in the frame and cumulatively (R22, R28). -/
def State.countCause (s : State) (x : Nat) (c : Cause) : State :=
  let p := s.pics.look x {}
  let p := match c with
    | .forced => { p with forced := p.forced + 1 }
    | .poisoned => { p with poisoned := p.poisoned + 1 }
    | .late => { p with late := p.late + 1 }
    | .policy => { p with policy := p.policy + 1 }
  let f := match c with
    | .forced => F.CUM_FORCED_COUNT
    | .poisoned => F.CUM_POISONED_COUNT
    | .late => F.CUM_LATE_COUNT
    | .policy => F.CUM_POLICY_COUNT
  { s with pics := s.pics.put x p }.addSat f 1 x

/-- DEADLINE_FALLBACK, once per stream per frame; its counter counts every occurrence (R23, R521).
(DEDUCED, log entry 201; DESIGN CHOICE, log entry 205.) -/
def State.raiseLate (s : State) (x k st : Nat) : State :=
  let p := s.pics.look x {}
  if p.lateRaised then s.addSat F.FLT_CNT_COUNT 1 0x09
  else { s with pics := s.pics.put x { p with lateRaised := true } }.raise
    { code := 0x09, cls := 3, unit := x, d0 := BitVec.ofNat 32 k, d1 := BitVec.ofNat 32 st }

/-- Settles a stripe-line: its drain word, now or when its completing fill lands (R20, R21, R329), and its count (R22, R23). -/
def State.settleStripe (s : State) (x k : Nat) (hidden : Bool) (st : Nat) (l : StripeLook) : State :=
  let p := s.pics.look x {}
  let s := if p.plan.isNone then s
    else if l.complete then s.drainSlot l.slot.fill
    else { s with stores := { s.stores with
        late := s.stores.late ++ [{ stream := x, fillAddr := l.slot.fill, need := l.slot.need, drainAddr := l.slot.fill + 4 }] } }
  let p := s.pics.look x {}
  let s := if l.cause = some .forced ∧ !p.forcedStripes.contains st then
      { s with pics := s.pics.put x { p with forcedStripes := st :: p.forcedStripes } }
    else s
  if hidden then s
  else match l.cause with
    | none => s
    | some c => let s := s.countCause x c; if c = .late then s.raiseLate x k st else s

/-! ### Slack (R26 to R28) -/

/-- The lines of the frame a stripe has completed in ascending order, from `n` on (R26); `fuel` bounds them. -/
def State.completeFrom (s : State) (x st n : Nat) : Nat → Nat
  | 0 => n
  | fuel + 1 =>
    let r := s.erSlot x st n
    if s.countOk r.fill && condHolds 4 (s.rawWord r.fill) r.need then State.completeFrom s x st (n + 1) fuel else n

/-- Brings the completed lines of every stripe of a stream up to date (R26). -/
def State.advance (s : State) (x h : Nat) : State :=
  let p := s.pics.look x {}
  match p.plan with
  | none => s
  | some plan =>
    { s with pics := s.pics.put x { p with complete := (List.range plan.skeins.length).foldl (fun m st =>
        let n := p.complete.look st 0
        m.put st (s.completeFrom x st n (h - n))) p.complete } }

/-- Slack of every stripe and of the stream at line `k`, with the frame minimum (R26, R27, R28); answers the stream's.
(DESIGN CHOICE, log entries 192 and 204.) -/
def State.noteSlack (s : State) (x k h stripes : Nat) : Int × State :=
  let s := s.advance x h
  let p := s.pics.look x {}
  let of_ (st : Nat) : Int := (p.complete.look st 0 : Int) - k
  let s := (List.range stripes).foldl (fun (s : State) st => s.setFld F.STRIPE_SLACK_SLACK (lowBits 16 (of_ st)) x st) s
  let (v, at_) := (List.range stripes).foldl (fun (m : Int × Nat) st => if of_ st < m.1 then (of_ st, st) else m) (of_ 0, 0)
  let s := s.setFld F.LIVE_SLACK_SLACK (lowBits 16 v) x
  let lower := match p.minSlack with
    | none => true
    | some m => decide (v < m.1)
  (v, if lower then { s with pics := s.pics.put x { p with minSlack := some (v, k, at_) } } else s)

/-! ### Video layers -/

/-- The stripe that holds column `u` of a stream. -/
def State.stripeOfCol (s : State) (x n u : Nat) : Option Nat :=
  (List.range n).find? (fun st => let g := s.stripeAt x st; decide (16 * g.1 ≤ u ∧ u < 16 * (g.1 + g.2)))

/-- The 10-bit component `j` of pixel `u` of P4 planes (R303). -/
def p4Value (planes : List (List Byte)) (u j : Nat) : Nat :=
  let b (c : Nat) : Nat := ((planes.getD c []).getD u 0).toNat
  b j * 4 + (b 3 / 4 ^ (3 - j)) % 4

/-- A pixel of 10-bit components, as it enters the blend (R303, R327). -/
def pixel10 (v : Nat → Nat) : Pixel := { c0 := 4 * v 0, c1 := 4 * v 1, c2 := 4 * v 2 }

/-- The pixels of a video line: enhanced where a stripe is selected, else the bypass scaler's (R18, R25). -/
def State.videoPixels (s : State) (x w : Nat) (looks : List StripeLook) (bypass : List (List Nat)) : List Pixel :=
  (List.range w).map (fun u =>
    match s.stripeOfCol x looks.length u with
    | some st =>
      match looks[st]? with
      | some l =>
        if l.cause = none then pixel10 (fun j => p4Value l.data (u - 16 * (s.stripeAt x st).1) j)
        else pixel10 (fun j => (bypass.getD j []).getD u 0)
      | none => pixel10 (fun j => (bypass.getD j []).getD u 0)
    | none => pixel10 (fun j => (bypass.getD j []).getD u 0))

/-- Where the bypass line comes from at C(n): the released rows (R16). -/
def State.bypassAt (s : State) (x k w : Nat) : List (List Nat) × State := if (s.path x).started then s.bypassLine x k w else ([], s)

/-- The decision for line `k` of stream `x` on layer `l` (R18 to R31): the layer's pixels, and the slack where the stream is
active: from the first line of the frame on which some stripe is not FORCED (R43). (DEDUCED, log entries 67, 207 and 214; DESIGN
CHOICE, log entry 61.) -/
def State.decideStream (s : State) (x l k : Nat) : (Option LayerLine × Option Int) × State :=
  let (w, h) := (s.frc F.LAY_SIZE_W l, s.frc F.LAY_SIZE_H l)
  let hidden := s.pathHidden x
  let (bypass, s) := s.bypassAt x k w
  let (looks, s) := s.lookLine x k
  let (looks, failed) := applyPolicy (s.frc F.LAY_CTRL_POLICY l) (s.pics.look x {}).frameFail looks
  let s := { s with pics := s.pics.put x { s.pics.look x {} with frameFail := failed } }
  let px := s.videoPixels x w looks bypass
  let s := (looks.zip (List.range looks.length)).foldl (fun s p => s.settleStripe x k hidden p.2 p.1) s
  let line : Option LayerLine := if hidden then none else some { layer := l, stream := some x, x := s.frc F.LAY_POS_X l, px := px }
  if (s.pics.look x {}).plan.isNone then ((line, none), s)
  else
    let (v, s) := s.noteSlack x k h looks.length
    if (s.pics.look x {}).active || looks.any (fun e => e.cause != some .forced) then
      ((line, some v), { s with pics := s.pics.put x { s.pics.look x {} with active := true } })
    else ((line, none), s)

/-! ### Surface formats (R331 to R334) -/

/-- Reads `n` bytes of surface data: from HyperRAM, or from the display store through the surface fetch port (R73, R335).
(DEDUCED, log entry 68.) -/
def State.readSource (s : State) (a n : Nat) : Option (List Byte × Bool) × State :=
  if s.inHyper a n then (some (s.bytesAt a n, false), s)
  else if storeOf a = some 4 ∧ s.servedBytes a n then
    let ((l, p), s) := (s.turnSpan (.unit 5) a n).getBytes 5 (a / 4 * 4) (n + a % 4)
    (some (l.drop (a % 4), p), s)
  else (none, s)

/-- Bytes of a packed pixel by format (R331). -/
def packedSize (fmt : Nat) : Nat := [2, 3, 4, 4].getD fmt 4

/-- Components and alpha of a packed pixel (R331, R332). -/
def packedPixel (fmt v : Nat) : Pixel :=
  let f (lo n : Nat) : Nat := (v / 2 ^ lo) % 2 ^ n * 2 ^ (12 - n)
  let alpha (lo n : Nat) : Nat := (roundDiv (((v / 2 ^ lo) % 2 ^ n * 4096 : Nat) : Int) (2 ^ n - 1)).toNat
  if fmt = 0 then { c0 := f 11 5, c1 := f 5 6, c2 := f 0 5 }
  else if fmt = 1 then { c0 := f 16 8, c1 := f 8 8, c2 := f 0 8 }
  else if fmt = 2 then { c0 := f 16 8, c1 := f 8 8, c2 := f 0 8, alpha := alpha 24 8 }
  else { c0 := f 20 10, c1 := f 10 10, c2 := f 0 10, alpha := alpha 30 2 }

/-- The surface matrix of a layer (step 3 of R332). -/
def State.surfMatrix (s : State) (l : Nat) (p : Pixel) : Pixel :=
  let m := s.frc F.LAY_CTRL_MATRIX l
  if m ≠ 1 ∧ m ≠ 2 then p
  else
    let coef (i : Nat) : Int := if i % 2 = 0 then s.sfrc F.SMAT_C_M0 (m - 1) (i / 2) else s.sfrc F.SMAT_C_M1 (m - 1) (i / 2)
    let post (j : Nat) : Int :=
      [s.sfrc F.SMAT_POST0_POST0 (m - 1), s.sfrc F.SMAT_POST0_POST1 (m - 1), s.sfrc F.SMAT_POST1_POST2 (m - 1)].getD j 0
    let out (j : Nat) : Nat :=
      (clampInt 0 4095 (roundShift (coef (3 * j) * p.c0 + coef (3 * j + 1) * p.c1 + coef (3 * j + 2) * p.c2) 12 + post j)).toNat
    { p with c0 := out 0, c1 := out 1, c2 := out 2 }

/-- The address a layer register gives in units of 256 bytes. -/
def State.layAddr (s : State) (r : RegField) (l : Nat) : Nat := 256 * s.frc r l

/-- A source line of a packed surface (R331). -/
def State.packedLine (s : State) (l y w : Nat) : Option (List Pixel) × State :=
  let fmt := s.frc F.LAY_CTRL_FORMAT l
  let n := packedSize fmt
  let (d, s) := s.readSource (s.layAddr F.LAY_ADDR_ADDR l + y * s.frc F.LAY_STRIDE_BYTES l) (n * w)
  (d.map (fun p => (List.range w).map (fun u => packedPixel fmt (leField p.1 (n * u) n))), s)

/-- Sample `i` of a Y′CbCr plane line, widened to 12 bits (R331, R332). -/
def planeSample (depth : Nat) (b : List Byte) (i : Nat) : Nat :=
  if depth = 0 then leField b i 1 * 16
  else if depth = 1 then leField b (2 * i) 2 % 1024 * 4
  else leField b (2 * i) 2 % 4096

/-- A source line of a Y′CbCr surface (R331, R332). -/
def State.yuvLine (s : State) (l y w : Nat) : Option (List Pixel) × State :=
  let fmt := s.frc F.LAY_CTRL_FORMAT l
  let depth := s.frc F.LAY_CTRL_DEPTH l
  let n := if depth = 0 then 1 else 2
  let semi := decide (7 ≤ fmt)
  let sx := if fmt = 4 then 1 else 2
  let cy := if fmt = 6 ∨ fmt = 8 then y / 2 else y
  let cw := (w + sx - 1) / sx
  let cstride := s.frc F.LAY_CSTRIDE_BYTES l
  let (a, s) := s.readSource (s.layAddr F.LAY_ADDR_ADDR l + y * s.frc F.LAY_STRIDE_BYTES l) (n * w)
  let (b, s) := s.readSource (s.layAddr F.LAY_CADDR_ADDR l + cy * cstride) (n * cw * (if semi then 2 else 1))
  let (c, s) := if semi then (b, s) else s.readSource (s.layAddr F.LAY_C2ADDR_ADDR l + cy * cstride) (n * cw)
  match a, b, c with
  | some ya, some cb, some cr =>
    (some ((List.range w).map (fun u =>
      let i := u / sx
      { c0 := planeSample depth ya.1 u
        c1 := planeSample depth cb.1 (if semi then 2 * i else i)
        c2 := planeSample depth cr.1 (if semi then 2 * i + 1 else i) })), s)
  | _, _, _ => (none, s)

/-- The pixels of an Ubsal-L block by row and column, or none where it must not be shown (R334). -/
def State.ubsalBlock (s : State) (l by_ bx across : Nat) : Option (Nat → Nat → Pixel) × State :=
  let fmt := s.frc F.LAY_CTRL_FORMAT l
  let n := packedSize fmt
  let (h, s) := s.readSource (s.layAddr F.LAY_CADDR_ADDR l + 4 * (by_ * across + bx)) 4
  match h with
  | none => (none, s)
  | some (hb, hp) =>
    let v := leNat hb
    let mode := v / 2 ^ 26 % 8
    let pal := if mode = 2 then 2 else if mode = 3 then 4 else 16
    let bits := if mode = 2 then 1 else if mode = 3 then 2 else 4
    let len := if mode = 0 then 256 * n else if mode = 1 then n else pal * n + 32 * bits
    if hp || decide (4 < mode ∨ v / 2 ^ 29 ≠ 0) then (none, s)
    else
      let (d, s) := s.readSource (s.layAddr F.LAY_ADDR_ADDR l + 32 * (v % 2 ^ 26)) len
      match d with
      | none => (none, s)
      | some (b, p) =>
        let at_ (i : Nat) : Pixel := packedPixel fmt (leField b (n * i) n)
        let index (i : Nat) : Nat := leField b (pal * n + i * bits / 8) 1 / 2 ^ (i * bits % 8) % 2 ^ bits
        (if p then none
          else some (fun y u =>
            let i := 64 * y + u
            if mode = 0 then at_ i else if mode = 1 then at_ 0 else at_ (index i)), s)

/-- The four source lines of a block row (R334). -/
def State.ubsalRow (s : State) (l by_ w : Nat) : Option (List (List Pixel)) × State :=
  let across := (w + 63) / 64
  let (blocks, s) := (List.range across).foldl (fun (acc : List (Option (Nat → Nat → Pixel)) × State) bx =>
    let (b, t) := acc.2.ubsalBlock l by_ bx across
    (acc.1 ++ [b], t)) ([], s)
  if blocks.any (fun b => b.isNone) then (none, s)
  else
    (some ((List.range 4).map (fun y => (List.range w).map (fun u => match blocks.getD (u / 64) none with
      | some f => f y (u % 64)
      | none => { c0 := 0, c1 := 0, c2 := 0 }))), s)

/-! ### Surface fetch (R335) -/

/-- The replication factor of a layer (R333). -/
def State.layScale (s : State) (l : Nat) : Nat := 2 ^ s.frc F.LAY_CTRL_SCALE l

/-- Whether layer `l` is an enabled surface layer. -/
def State.isSurface (s : State) (l : Nat) : Bool := decide (1 ≤ l) && s.frc F.LAY_CTRL_EN l == 1 && s.frc F.LAY_CTRL_KIND l == 0

/-- The fetch state of layer `l`. -/
def State.surfOf (s : State) (l : Nat) : Surf := s.cmp.surf.look l {}

/-- Replaces the fetch state of layer `l`. -/
def State.setSurf (s : State) (l : Nat) (v : Surf) : State := { s with cmp := { s.cmp with surf := s.cmp.surf.put l v } }

/-- Puts a source line into the layer's ring, which keeps FETCH lines (R335); a line already abandoned is not shown. -/
def State.putSource (s : State) (l y : Nat) (px : List Pixel) : State :=
  let v := s.surfOf l
  let depth := fetchDepth (s.frc F.LAY_RING_FETCH l)
  if v.gone.contains y then s
  else
    let rows := Sparse.put (v.rows.filter (fun r => decide (y < r.1 + depth))) y (px.map (s.surfMatrix l))
    (s.setSurf l { v with rows := rows }).freeRegion 5 (storeBase 4 + 256 * s.frc F.LAY_RING_BASE l + 46080 * (y % depth)) 46080

/-- SURFACE_FETCH of the source line, or of the block row that holds it, of a layer (R334, R335). -/
def execSurfaceFetch (layer : Fin 8) (line : Nat) (s : State) : Host.Outcome State Fault Refusal :=
  let l := layer.val
  let (w, h) := (s.frc F.LAY_SIZE_W l / s.layScale l, s.frc F.LAY_SIZE_H l / s.layScale l)
  done (if !s.running 0 || !s.isSurface l || decide (h ≤ line) then s
    else if s.frc F.LAY_CTRL_UBSAL l = 1 then
      let (rows, s) := s.ubsalRow l (line / 4) w
      match rows with
      | some rs => (List.range 4).foldl (fun s y => if 4 * (line / 4) + y < h then s.putSource l (4 * (line / 4) + y) (rs.getD y []) else s) s
      | none => s
    else
      let (px, s) := if s.frc F.LAY_CTRL_FORMAT l < 4 then s.packedLine l line w else s.yuvLine l line w
      match px with
      | some p => s.putSource l line p
      | none => s)

/-- UNDERRUN of layer `l` at raster line `n`: the source line is abandoned, the line counted, the fault raised once per layer
per frame (R31, R335, R521). (DESIGN CHOICE, log entry 195.) -/
def State.underrun (s : State) (l y n : Nat) : State :=
  let v := s.surfOf l
  let s := (s.setSurf l { v with raised := true, gone := if v.gone.contains y then v.gone else y :: v.gone }).addSat F.UNDER_CNT_COUNT 1 l
  let s := s.setBit F.CMP_EVT_UNDERRUN
  if v.raised then s.addSat F.FLT_CNT_COUNT 1 0x11
  else s.raise { code := 0x11, cls := 7, unit := l, d0 := BitVec.ofNat 32 n }

/-- A surface layer at C(n) (R333, R335). -/
def State.decideSurface (s : State) (l k n : Nat) : Option LayerLine × State :=
  let sc := s.layScale l
  let v := s.surfOf l
  let y := k / sc
  if v.rows.has y && !v.gone.contains y then
    let row := v.rows.look y []
    (some { layer := l, stream := none, x := s.frc F.LAY_POS_X l
            px := (List.range (s.frc F.LAY_SIZE_W l)).map (fun u => row.getD (u / sc) { c0 := 0, c1 := 0, c2 := 0 }) }, s)
  else (none, s.underrun l y n)

/-! ### The decision instant (R18, R324) -/

/-- Reads the sources of layer `l` on raster line `n`; a video layer also answers its stream's slack. -/
def State.decideLayer (s : State) (l n : Nat) : (Option LayerLine × List (Nat × Option Int)) × State :=
  let (y, h) := (s.frc F.LAY_POS_Y l, s.frc F.LAY_SIZE_H l)
  if s.frc F.LAY_CTRL_EN l ≠ 1 ∨ n < y ∨ y + h ≤ n then ((none, []), s)
  else
    let kind := s.frc F.LAY_CTRL_KIND l
    if kind = 0 then
      let (line, s) := s.decideSurface l (n - y) n
      ((line, []), s)
    else if kind = 3 then ((none, []), s)
    else
      let ((line, slack), s) := s.decideStream (kind - 1) l (n - y)
      ((line, [(kind - 1, slack)]), s)

/-- The sources of a line of raster 0, bottom to top, and the slacks of its streams. (DESIGN CHOICE, log entry 84.) -/
def State.decideLine (s : State) (n : Nat) : (List LayerLine × List (Nat × Option Int)) × State :=
  (List.range' 1 7).foldl (fun (acc : (List LayerLine × List (Nat × Option Int)) × State) l =>
    let ((line, sl), t) := acc.2.decideLayer l n
    ((acc.1.1 ++ line.toList, acc.1.2 ++ sl), t)) (([], []), s)

/-- The sources of a line of raster 1: in TAKEOVER path 1's bypass output (R356, R357). (DEDUCED, log entry 208.) -/
def State.decideSecond (s : State) (n : Nat) : List LayerLine × State :=
  match s.pathRect 1 with
  | some (x, y, w, h) =>
    if !s.inTakeover || s.pathHidden 1 || !(s.path 1).started || decide (n < y ∨ y + h ≤ n) then ([], s)
    else
      let (v, s) := s.bypassLine 1 (n - y) w
      ([{ layer := 0, stream := some 1, x := x, px := (List.range w).map (fun u => pixel10 (fun j => (v.getD j []).getD u 0)) }], s)
  | none => ([], s)

/-- DECISION_INSTANT of line `n` of raster `r` (R18, R27, R324). -/
def execDecisionInstant (r : Fin 2) (n : Nat) (s : State) : Host.Outcome State Fault Refusal :=
  done (if !s.running r || decide (s.frc F.TMG_V_VACT r ≤ n) then s
    else
      let (lines, s) := if r.val = 0 then
          let ((lines, slacks), s) := s.decideLine n
          (lines, if slacks.isEmpty then s else s.belayDecide slacks)
        else s.decideSecond n
      { s with cmp := { s.cmp with lines := s.cmp.lines.put (8192 * r.val + n) lines } })

end Sys2Proof.Machine
end

