-- ==== Sys2Proof/Machine/Output.lean ====
section
/-! DEFINITION. Blending (R337, R338), the colour volume (R341, R342), output conversion (R345), guarded regions and pin
read-back (R358 to R360). -/

namespace Sys2Proof.Machine

/-! ### Blending (R332, R337) -/

/-- Product with a fraction of 255, rounded. -/
def scale255 (v : Int) (g : Nat) : Int := roundDiv (v * g) 255

/-- One component of the straight form (R337). -/
def blendStraight (a : Int) (src dst : Nat) : Nat := (roundShift (a * src + (4096 - a) * dst) 12).toNat

/-- One component of the premultiplied form; `mid` is taken off first and added back (R337). -/
def blendPremul (a : Int) (g : Nat) (mid : Int) (src dst : Nat) : Nat :=
  (clampInt 0 4095 (scale255 (src - mid) g + roundShift ((4096 - a) * (dst - mid)) 12 + mid)).toNat

/-- One pixel of a layer over what lies below it (R337). -/
def blendPixel (premul pspace : Bool) (g : Nat) (p dst : Pixel) : Pixel :=
  let a := scale255 p.alpha g
  let f (mid : Int) (x y : Nat) : Nat := if premul then blendPremul a g mid x y else blendStraight a x y
  let mid : Int := if pspace then 2048 else 0
  { c0 := f 0 p.c0 dst.c0, c1 := f mid p.c1 dst.c1, c2 := f mid p.c2 dst.c2 }

/-- A layer line over a line (R326, R337). -/
def State.blendLayer (s : State) (dst : List Pixel) (l : LayerLine) : List Pixel :=
  let g := if l.layer = 0 then 255 else s.frc F.LAY_CTRL_GALPHA l.layer
  let premul := l.layer != 0 && l.stream.isNone && s.frc F.LAY_CTRL_PREMUL l.layer == 1
  let pspace := s.frc F.CMP_BG1_PSPACE == 1
  (dst.zip (List.range dst.length)).map (fun p =>
    if p.2 < l.x then p.1 else match l.px[p.2 - l.x]? with
      | some q => blendPixel premul pspace g q p.1
      | none => p.1)

/-- The background of a raster (R325, R356). -/
def State.background (s : State) (r : Nat) : Pixel :=
  if r = 0 then { c0 := s.frc F.CMP_BG0_C0, c1 := s.frc F.CMP_BG0_C1, c2 := s.frc F.CMP_BG1_C2 }
  else { c0 := s.frc F.CMP_TKO_BG0_C0, c1 := s.frc F.CMP_TKO_BG0_C1, c2 := s.frc F.CMP_TKO_BG1_C2 }

/-- The enabled ports a raster drives (R356). -/
def State.portsOf (s : State) (r : Nat) : List Nat := [0, 1].filter (fun o => s.bit F.SRC_CTRL_EN o && s.portRaster o == r)

/-- Whether a video layer must not be shown on a raster (R338). (DEDUCED, log entry 79.) -/
def State.hdcpBlocked (s : State) (r x : Nat) : Bool :=
  let i := s.fld F.INP_CTRL_SRC x
  s.bit F.SNK_STATUS_ENCRYPTED i && (s.portsOf r).any (fun o =>
    !s.encrypting o || (s.bit F.SNK_STATUS_TYPE1 i && !s.bit F.SRC_STATUS_TYPE1_OK o))

/-! ### Post-blend mapping (R339, R341, R342) -/

/-- The byte offset of lattice entry (r, g, b) (R342). -/
def cvOffset (r g b : Nat) : Nat :=
  let k := 4 * (r % 2) + 2 * (g % 2) + b % 2
  let q := 16384 * (r / 2) + 128 * (g / 2) + b / 2
  4 * (64 * (q / 8) + 8 * k + q % 8)

/-- The four lattice points of a value with their weights over 4,096 (R341). -/
def cvCorners (p : Pixel) : List ((Nat × Nat × Nat) × Nat) :=
  let i (v : Nat) : Nat := 255 * v / 4096
  let t (v : Nat) : Nat := 255 * v % 4096
  let (tr, tg, tb) := (t p.c0, t p.c1, t p.c2)
  let order : List (Nat × Nat) :=
    if tg ≤ tr ∧ tb ≤ tr then (if tb ≤ tg then [(tr, 0), (tg, 1), (tb, 2)] else [(tr, 0), (tb, 2), (tg, 1)])
    else if tb ≤ tg then (if tb ≤ tr then [(tg, 1), (tr, 0), (tb, 2)] else [(tg, 1), (tb, 2), (tr, 0)])
    else (if tg ≤ tr then [(tb, 2), (tr, 0), (tg, 1)] else [(tb, 2), (tg, 1), (tr, 0)])
  let t1 := (order.getD 0 (0, 0)).1
  let t2 := (order.getD 1 (0, 0)).1
  let t3 := (order.getD 2 (0, 0)).1
  let step (c : Nat × Nat × Nat) (ax : Nat) : Nat × Nat × Nat :=
    (c.1 + (if ax = 0 then 1 else 0), c.2.1 + (if ax = 1 then 1 else 0), c.2.2 + (if ax = 2 then 1 else 0))
  let v0 := (i p.c0, i p.c1, i p.c2)
  let v1 := step v0 (order.getD 0 (0, 0)).2
  let v2 := step v1 (order.getD 1 (0, 0)).2
  let v3 := (i p.c0 + 1, i p.c1 + 1, i p.c2 + 1)
  [(v0, 4096 - t1), (v1, t1 - t2), (v2, t2 - t3), (v3, t3)]

/-- The address of a lattice entry. -/
def cvAddr (c : Nat × Nat × Nat) : Nat := storeBase 3 + cvOffset c.1 c.2.1 c.2.2

/-- A value mapped by the colour volume (R341, R342). -/
def State.cvMap (s : State) (p : Pixel) : Pixel :=
  let cs := cvCorners p
  let out (j : Nat) : Nat := (roundDiv (((cs.map (fun c => c.2 * ((s.rawWord (cvAddr c.1)).toNat / 2 ^ (10 * j) % 1024))).sum : Nat) : Int) 1024).toNat
  { c0 := out 0, c1 := out 1, c2 := out 2 }

/-- The reads of the interpolator find and report stored-bit errors (R84, R85). -/
def State.touchErrors (s : State) (addrs : List Nat) : State :=
  ((s.flips.map (fun c => c.1)).filter (fun a => addrs.contains a)).foldl (fun s a => (s.getWord 0 a).2) s

/-- The post-blend LUT and the colour volume (step 2 of R324). -/
def State.postMap (s : State) (px : List Pixel) : List Pixel × State :=
  let px := px.map (fun p => { c0 := s.lutMap 2 0 p.c0, c1 := s.lutMap 2 1 p.c1, c2 := s.lutMap 2 2 p.c2 : Pixel })
  if s.bit F.CV_STATUS_EN then
    let s := s.touchErrors (px.flatMap (fun p => (cvCorners p).map (fun c => cvAddr c.1)))
    (px.map s.cvMap, s)
  else (px, s)

/-! ### Output conversion (R345) -/

/-- The port's matrix (step 1 of R345): the 12-bit components of a line. -/
def State.portMatrix (s : State) (o : Nat) (px : List Pixel) : List (List Nat) :=
  let coef (i : Nat) : Int := if i % 2 = 0 then s.sfrc F.SRC_MAT_M0 o (i / 2) else s.sfrc F.SRC_MAT_M1 o (i / 2)
  let pre (k : Nat) : Int := [s.sfrc F.SRC_PRE0_P0 o, s.sfrc F.SRC_PRE0_P1 o, s.sfrc F.SRC_PRE1_P2 o].getD k 0
  let post (k : Nat) : Int := [s.sfrc F.SRC_POST0_P0 o, s.sfrc F.SRC_POST0_P1 o, s.sfrc F.SRC_POST1_P2 o].getD k 0
  (List.range 3).map (fun j => px.map (fun p =>
    (clampInt 0 4095 (roundShift (coef (3 * j) * ((p.c0 : Int) - pre 0) + coef (3 * j + 1) * ((p.c1 : Int) - pre 1) +
      coef (3 * j + 2) * ((p.c2 : Int) - pre 2)) 12 + post j)).toNat))

/-- The mean of `n` = 2^k samples, rounded (step 2 of R345). -/
def meanOf (k : Nat) (l : List Nat) : Nat := (roundShift (l.sum : Nat) k).toNat

/-- Chroma of a line by horizontal pairs, and of two lines by 2 × 2 blocks (step 2 of R345). -/
def halfChroma (rows : List (List Nat)) : List Nat :=
  let n := ((rows.getD 0 []).length + 1) / 2
  (List.range n).map (fun u => meanOf (if rows.length = 2 then 2 else 1)
    (rows.flatMap (fun r => [r.getD (2 * u) 0, r.getD (2 * u + 1) (r.getD (2 * u) 0)])))

/-- The ordered dither matrix (R345). -/
def ditherB (x y : Nat) : Nat :=
  ([[0, 8, 2, 10], [12, 4, 14, 6], [3, 11, 1, 9], [15, 7, 13, 5]].getD (y % 4) []).getD (x % 4) 0

/-- A sample reduced to the port's bits (step 3 of R345). -/
def reduceSample (dither bpc seq x y v : Nat) : Nat :=
  let k := 12 - bpc
  let top := 2 ^ bpc - 1
  if dither = 1 ∨ dither = 2 then
    let o := if dither = 2 then seq % 4 else 0
    min ((32 * v + (2 * ditherB (x + o) (y + o) + 1) * 2 ^ k) / 2 ^ (k + 5)) top
  else min (roundShift v k).toNat top

/-- Bits per component of a port (R366). -/
def State.portBpc (s : State) (o : Nat) : Nat := 8 + 2 * min 2 (s.frc F.SRC_FMT_BPC o)

/-- A plane's samples of one line reduced (R345). -/
def State.reduceLine (s : State) (o r y : Nat) (l : List Nat) : List Nat :=
  (l.zip (List.range l.length)).map (fun p =>
    reduceSample (s.frc F.SRC_FMT_DITHER o) (s.portBpc o) ((s.raster r).seq.toNat) p.2 y p.1)

/-! ### Guarded regions (R358, R359) -/

/-- A sample as a 16-bit little-endian value. -/
def sample16 (v : Nat) : List Byte := [BitVec.ofNat 8 v, BitVec.ofNat 8 (v / 256)]

/-- The samples of columns `x` to `x + w - 1` of a line in raster order (R358). -/
def regionSamples (enc n x w : Nat) (comps : List (List Nat)) : List Byte :=
  (List.range w).flatMap (fun i =>
    let u := x + i
    let c (j v : Nat) : List Byte := sample16 ((comps.getD j []).getD v 0)
    if enc < 2 then c 0 u ++ c 1 u ++ c 2 u
    else if enc = 3 ∧ n % 2 = 1 then c 0 u
    else c 0 u ++ c (1 + u % 2) (u / 2))

/-- A guarded region's value in force. -/
def State.grd (s : State) (f : RegField) (g : Nat) : Nat := s.frc f g

/-- The end of a region's last line: the CRC is learnt, or compared (R359). -/
def State.endRegion (s : State) (r g : Nat) (crc : Word) : State :=
  let s := s.wr .GRD_MEAS crc g
  if s.bit F.GRD_CFG_LEARN g then ((s.wr .GRD_EXP crc g).take .GRD_EXP g).setFld F.GRD_CFG_LEARN 0 g
  else if s.grd F.GRD_EXP_CRC g = crc.toNat then s
  else
    ((s.addSat F.GRD_CNT_COUNT 1 g).setBit F.GRD_EVT_MISMATCH g).raise
      { code := 0x0F, cls := 7, unit := g, d0 := (s.raster r).seq, d1 := crc }

/-- Takes line `n` of port `o` into the CRCs of its regions (R358, R359). -/
def State.guardLine (s : State) (o r n : Nat) (comps : List (List Nat)) : State :=
  (List.range 16).foldl (fun s g =>
    let (y, h) := (s.grd F.GRD_POS_Y g, s.grd F.GRD_SIZE_H g)
    if !s.bit F.GRD_CFG_EN g || s.fld F.GRD_CFG_PORT g != o || decide (n < y ∨ y + h ≤ n) then s
    else
      let c := if n = y then 0xFFFFFFFF else s.cmp.crc.look g 0xFFFFFFFF
      let c := crc32cRun c (regionSamples (s.frc F.SRC_FMT_ENC o) n (s.grd F.GRD_POS_X g) (s.grd F.GRD_SIZE_W g) comps)
      let s := { s with cmp := { s.cmp with crc := s.cmp.crc.put g c } }
      if n + 1 = y + h then s.endRegion r g (~~~c) else s) s

/-! ### A line at a port -/

/-- Port `o`. -/
def State.portLine (s : State) (o : Nat) : PortLine := s.cmp.ports.look o {}

/-- Replaces port `o`. -/
def State.setPortLine (s : State) (o : Nat) (v : PortLine) : State := { s with cmp := { s.cmp with ports := s.cmp.ports.put o v } }

/-- Whether a port sends video (R346). -/
def State.sendsVideo (s : State) (o : Nat) : Bool := s.bit F.SRC_CTRL_EN o && s.bit F.SRC_STATUS_RATE o && !s.overRate o

/-- A finished line of a port: its regions, and what it sends, with the VSC SDP of its frame and DSC's settings (R346).
(DEDUCED, log entry 200.) -/
def State.emitLine (s : State) (o r n : Nat) (comps : List (List Nat)) : State :=
  let s := s.guardLine o r n comps
  let on := s.sendsVideo o
  s.setPortLine o { s.portLine o with
    line := n, sent := if on then comps else [], vsc := if on then some (s.frc F.SRC_VSC_VSC o) else none
    dsc := if on && s.frc F.SRC_DSC_EN o == 1 then
        some (s.frc F.SRC_DSC_BPP o, s.frc F.SRC_DSC_SLICES o, s.frc F.SRC_DSC_BLOCK_PRED o == 1)
      else none }

/-- Step 3 of R324 for a port: the matrix, chroma, dither.  With 4:2:0 a pair of lines is finished by its second line, or by the
last line of the frame alone (R345, R358). (DEDUCED, log entry 81.) -/
def State.convertLine (s : State) (o r n : Nat) (px : List Pixel) : State :=
  let enc := s.frc F.SRC_FMT_ENC o
  let cur := s.portMatrix o px
  let c (l : List (List Nat)) (j : Nat) : List Nat := l.getD j []
  let red (y : Nat) (l : List Nat) : List Nat := s.reduceLine o r y l
  if enc < 2 then s.emitLine o r n ((List.range 3).map (fun j => red n (c cur j)))
  else if enc = 2 then s.emitLine o r n [red n (c cur 0), red n (halfChroma [c cur 1]), red n (halfChroma [c cur 2])]
  else
    let pair (a b : List (List Nat)) (j : Nat) : List Nat := red (n / 2) (halfChroma [c a j, c b j])
    let one (a b : List (List Nat)) (y : Nat) (l : List (List Nat)) (s : State) : State :=
      s.emitLine o r y [red y (c l 0), pair a b 1, pair a b 2]
    if n % 2 = 1 then
      let prev := (s.portLine o).prev
      one prev cur n cur (one prev cur (n - 1) prev s)
    else if n + 1 = s.frc F.TMG_V_VACT r then one cur cur n cur s
    else s.setPortLine o { s.portLine o with prev := cur }

/-- READBACK_MISMATCH of a port at the end of a frame (R360). (DESIGN CHOICE, log entry 82.) -/
def State.readBack (s : State) (lanes o : Nat) : State :=
  if !(s.fld F.RB_CTRL_EN).testBit o then s
  else
    let m := lanes / 16 ^ o % 16
    let s := s.setFld (if o = 0 then F.RB_STATUS_LANES0 else F.RB_STATUS_LANES1) m
    if m = 0 then s
    else
      ((s.addSat (if o = 0 then F.RB_CNT0_COUNT else F.RB_CNT1_COUNT)).setBit F.GRD_EVT_RB_MISMATCH o).raise
        { code := 0x10, cls := 7, unit := o, d0 := BitVec.ofNat 32 m }

/-- LINE_BLEND of line `n` of raster `r` (R324): the layers, the post-blend mapping, and each enabled port; `lanes` are the
read-back lanes found different, which count at the last line of the frame. -/
def execLineBlend (r : Fin 2) (n : Nat) (lanes : BitVec 8) (s : State) : Host.Outcome State Fault Refusal :=
  let key := 8192 * r.val + n
  done (if !s.running r || !s.cmp.lines.has key then s
    else
      let layers := s.cmp.lines.look key []
      let s := { s with cmp := { s.cmp with lines := s.cmp.lines.del key } }
      let blocked (l : LayerLine) : Bool := match l.stream with
        | some x => s.hdcpBlocked r x
        | none => false
      let s' := if layers.any blocked then s.setBit F.CMP_EVT_HDCP_BLOCK else s
      let px := (layers.filter (fun l => !blocked l)).foldl s.blendLayer (List.replicate (s.frc F.TMG_H_HACT r) (s.background r))
      let (px, s) := s'.postMap px
      let s := (s.portsOf r).foldl (fun s o => s.convertLine o r n px) s.noteRates
      if n + 1 = s.frc F.TMG_V_VACT r then (s.portsOf r).foldl (fun s o => s.readBack lanes.toNat o) s else s)

end Sys2Proof.Machine
end

