-- ==== Sys2Proof/Machine/Wire.lean ====
section
/-! DEFINITION. Sending on the Ethernet ports: the Pulet frame and its CRC, fault injection, the retransmit buffer, and
routing (R368 to R378, R391). -/

namespace Sys2Proof.Machine

/-- Ethernet port `p` beside its registers. -/
def State.port (s : State) (p : Nat) : Port := s.net.ports.look p {}

/-- Replaces a port. -/
def State.setPort (s : State) (p : Nat) (k : Port) : State := { s with net := { s.net with ports := s.net.ports.put p k } }

/-- Changes a port. -/
def State.updPort (s : State) (p : Nat) (f : Port → Port) : State := s.setPort p (f (s.port p))

/-- The gPTP state of a port. -/
def State.setPtp (s : State) (p : Nat) (k : PtpPort) : State := s.updPort p (fun q => { q with ptp := k })

/-- This device's chip ID (R376). -/
def State.chip (s : State) : Nat := s.fld F.PLT_STATUS_CHIP

/-- A port's own address (R392): PRT_MAC. -/
def State.ownAddress (s : State) (p : Nat) : BitVec 48 := BitVec.ofNat 48 (s.fld F.PRT_MAC_HI_MAC p * 2 ^ 32 + s.fld F.PRT_MAC_LO_MAC p)

/-- The address a port sends to (R369): PRT_PEER. -/
def State.peerAddress (s : State) (p : Nat) : BitVec 48 :=
  BitVec.ofNat 48 (s.fld F.PRT_PEER_HI_PEER p * 2 ^ 32 + s.fld F.PRT_PEER_LO_PEER p)

/-- The EtherType of gPTP (R369). -/
def ptpEtype : BitVec 16 := 0x88F7

/-- The EtherType of Pulet: PLT_CTRL.ETYPE, of which 0x88F7 acts as 0x88B5 (R370, R393). -/
def State.puletEtype (s : State) : BitVec 16 :=
  let e := BitVec.ofNat 16 (s.fld F.PLT_CTRL_ETYPE)
  if e = ptpEtype then 0x88B5 else e

/-! ### The frame (R370, R371) -/

/-- A frame as its origin sends it: HOPS 11 and its CRC (R376). -/
def sealed (f : Frame) : Frame := { f with hops := 11, crc := frameCheck { f with hops := 11 } }

/-- A frame with nothing in it but its type and ends. -/
def blankFrame (mtype dst src : Nat) : Frame :=
  { seq := 0, ackn := 0, mtype := BitVec.ofNat 8 mtype, dst := BitVec.ofNat 4 dst, src := BitVec.ofNat 4 src, hops := 11
    hostSrc := false, hostDst := false, ackReq := false, poison := false, first := false, repair := false
    tag := 0, win := 0, status := 0, gen := 0, chan := 0, group := 0, offset := 0, aux := 0, data := [], crc := 0 }

/-- The types of R371 that act on a device they are delivered to. -/
def actingTypes : List Nat := [1, 2, 3, 4, 5, 6, 7, 9, 0x81, 0x83, 0x84, 0x85]

/-- The types of R371 that are for a host: EVENT, and the responses to management transactions, which no device sends.
(DEDUCED, log entry 105.) -/
def hostTypes : List Nat := [8, 0x86, 0x87]

/-- Whether a request has a response (R371): WRITE where it asks for one, READ, ATOMIC, MCAST, MGMT_RD and MGMT_WR. -/
def answered (f : Frame) : Bool :=
  (f.mtype == 1 && f.ackReq) || (decide (3 ≤ f.mtype.toNat ∧ f.mtype.toNat ≤ 7))

/-- The response to a request: TYPE plus 0x80, the request's TAG, CHAN and WIN, its ends exchanged, HOSTDST as the request's
HOSTSRC (R371). (DESIGN CHOICE, log entry 106.) -/
def State.reply (s : State) (f : Frame) (status : Nat) : Frame :=
  { blankFrame (f.mtype.toNat + 0x80) f.src.toNat s.chip with
    hostDst := f.hostSrc, tag := f.tag, chan := f.chan, win := f.win, status := BitVec.ofNat 8 status }

/-! ### Time stamps as a frame leaves (R405 to R408) -/

/-- The transmit time stamp of a frame that leaves port `p` now, in ns. (DEDUCED, log entry 89; DESIGN CHOICE, log entry 4.) -/
def State.txTime (s : State) (p : Nat) : Int :=
  s.ntInt + (if s.bit F.PRT_STATUS_SPEED p then s.fld F.PTP_LAT_TX_2G5 p else s.fld F.PTP_LAT_TX_10G p : Nat)

/-- The receive time stamp of a frame that is received at port `p` now, in ns.
(DEDUCED, log entry 89; DESIGN CHOICE, log entry 4.) -/
def State.rxTime (s : State) (p : Nat) : Int :=
  s.ntInt - (if s.bit F.PRT_STATUS_SPEED p then s.fld F.PTP_LAT_RX_2G5 p else s.fld F.PTP_LAT_RX_10G p : Nat)

/-- A frame as it leaves port `p`, with the time stamps it takes and carries (R404 to R408). -/
def State.stamped (s : State) (p : Nat) : WireFrame → WireFrame × State
  | .relaySync m tr delay =>
    let c := m.correction + BitVec.ofInt 64 ((s.txTime p - tr) * 65536 + (delay : Int) * 256)
    (.ptpSync { m with correction := c, twoStep := false }, s.addWrap F.PTP_SYNCS_TX 1 p)
  | .gmSync m =>
    (.ptpSync { ptpStamped m (s.txTime p) with correction := BitVec.ofNat 64 (s.ntV.toNat % 65536) }, s.addWrap F.PTP_SYNCS_TX 1 p)
  | .pdelayReq m => (.pdelayReq m, s.setPtp p { (s.port p).ptp with reqSent := some (s.txTime p), resp := none })
  | .pdelayResp m => (.pdelayResp m, s.setPtp p { (s.port p).ptp with respSent := s.txTime p })
  | .pdelayRespFollowUp m => (.pdelayRespFollowUp (ptpStamped m (s.port p).ptp.respSent), s)
  | f => (f, s)

/-- The class of a frame that PRT_FI_CTRL.MATCH compares: DATA, other Pulet kinds, gPTP, all others. -/
def WireFrame.kind : WireFrame → Nat
  | .data _ => 0
  | .ack _ | .nak _ | .sync _ | .syncAck _ | .malformed => 1
  | .other => 3
  | _ => 2

/-- A frame as port `p` sends it: to PRT_PEER, from PRT_MAC, with the EtherType of its layer (R369). -/
def State.sentFrom (s : State) (p : Nat) (f : WireFrame) : Sent :=
  { port := p, frame := f, da := s.peerAddress p, sa := s.ownAddress p, etype := if f.kind ≤ 1 then s.puletEtype else ptpEtype }

/-- A frame leaves a port whose link is up. -/
def State.sendOut (s : State) (p : Nat) (x : WireFrame × Option Nat) : State :=
  if !s.bit F.PRT_STATUS_PHY_UP p then s
  else
    let (f, s) := s.stamped p x.1
    let s := s.addWrap F.PRT_TXF_COUNT 1 p
    { s with net := { s.net with outbox := s.net.outbox ++ [{ s.sentFrom p f with flip := x.2 }] } }

/-! ### Fault injection (R391) -/

/-- The DATA of a frame: a gPTP frame's message counts as its DATA (R408). (DESIGN CHOICE, log entry 87.) -/
def WireFrame.payload (f : WireFrame) : List Byte :=
  match f, f.ptp with
  | .data d, _ => d.data
  | _, some (ty, m) => ptpBytes ty m
  | _, none => []

/-- A frame with bit 0 of DATA byte n mod length inverted (CORRUPT_DATA). (DESIGN CHOICE, log entry 87.) -/
def WireFrame.corrupt (n : Nat) (f : WireFrame) : WireFrame :=
  let bad := f.payload.modify (n % f.payload.length) (fun b => b ^^^ 1)
  match f, parsePtp bad with
  | .data d, _ => .data { d with data := bad }
  | .relaySync _ tr delay, .ptpSync m => .relaySync m tr delay
  | .gmSync _, .ptpSync m => .gmSync m
  | f, g => if f.kind = 2 then g else f

/-- One step of the shift register of polynomial x^16 + x^14 + x^13 + x^11 + 1. -/
def lfsrStep (v : BitVec 16) : BitVec 16 :=
  let b := (v.getLsbD 0 != v.getLsbD 2) != (v.getLsbD 3 != v.getLsbD 5)
  (v >>> 1) ||| (if b then 0x8000 else 0)

/-- Passes a frame through a port's injection in its direction: what comes out of it now.
(DEDUCED, log entry 86.) -/
def State.inject (s : State) (p : Nat) (rx : Bool) (f : WireFrame) : List (WireFrame × Option Nat) × State :=
  let k := s.port p
  let action := let a := s.fld F.PRT_FI_CTRL_ACTION p; if 4 < a then 0 else a
  let delayed := k.fiHeld.any (fun h => h.rx == rx && h.until_.isSome)
  let wait (x : WireFrame × Option Nat) : Held := { rx := rx, frame := x.1, bad := x.2, frames := 0, until_ := none }
  if s.bit F.PRT_FI_CTRL_EN p && (s.bit F.PRT_FI_CTRL_DIR p == rx) && decide (f.kind ≤ s.fld F.PRT_FI_CTRL_MATCH p) &&
      (action != 2 || !f.payload.isEmpty) then
    let n := k.fiCount + 1
    let limit := s.fld F.PRT_FI_LIMIT_COUNT p
    let every := max 1 (s.fld F.PRT_FI_SEL_N p)
    let hit := decide (limit = 0 ∨ s.fld F.PRT_FI_COUNT_COUNT p < limit) &&
      (if s.bit F.PRT_FI_SEL_MODE p then decide (k.fiLfsr.toNat < every) else n % every == 0)
    let counted := k.fiHeld.map (fun h => if h.rx = rx ∧ h.frames ≠ 0 then { h with frames := h.frames - 1 } else h)
    let freed := fun (h : Held × Held) => h.1.frames != 0 && h.2.frames == 0
    let pairs := k.fiHeld.zip counted
    let released := (pairs.filter freed).map (fun h => (h.1.frame, h.1.bad))
    let kept := (pairs.filter (fun h => !freed h)).map (fun h => h.2)
    let self : List (WireFrame × Option Nat) :=
      if !hit then [(f, none)] else if action = 1 then [(f, some n)] else if action = 2 then [(f.corrupt n, none)] else []
    let held : List Held :=
      if hit ∧ action = 3 then [{ wait (f, none) with frames := max 1 (s.fld F.PRT_FI_PARAM_DEPTH p) }]
      else if hit ∧ action = 4 then [{ wait (f, none) with until_ := some ((s.time + 1000 * max 1 (s.fld F.PRT_FI_PARAM_DELAY p)) % 2 ^ 64) }]
      else []
    let blocked := delayed || (hit && action == 4)
    let out := self ++ released
    let s := if hit then s.addSat F.PRT_FI_COUNT_COUNT 1 p else s
    let s := s.setPort p
      { k with fiCount := n, fiLfsr := lfsrStep k.fiLfsr, fiHeld := kept ++ held ++ (if blocked then out.map wait else []) }
    (if blocked then [] else out, s)
  else if delayed then ([], s.setPort p { k with fiHeld := k.fiHeld ++ [wait (f, none)] })
  else ([(f, none)], s)

/-- What the end of the first delay of a direction lets pass: the delayed frame and those that wait behind it.
(DEDUCED, log entry 88.) -/
def popDelay (rx : Bool) : Bool → List Held → List (WireFrame × Option Nat) × List Held
  | _, [] => ([], [])
  | started, h :: r =>
    if h.rx ≠ rx ∨ h.frames ≠ 0 then let (o, k) := popDelay rx started r; (o, h :: k)
    else if h.until_.isSome then
      if started then ([], h :: r) else let (o, k) := popDelay rx true r; ((h.frame, h.bad) :: o, k)
    else if started then let (o, k) := popDelay rx true r; ((h.frame, h.bad) :: o, k)
    else let (o, k) := popDelay rx false r; (o, h :: k)

/-- A port transmits a frame, through its injection. -/
def State.transmit (s : State) (p : Nat) (f : WireFrame) : State :=
  let (out, s) := s.inject p false f
  out.foldl (fun s x => s.sendOut p x) s

/-! ### Sending DATA frames (R373, R374) -/

/-- The Pulet state of a port: 0 DOWN, 1 SYNCING, 2 UP, 3 FAILED. -/
def State.pulet (s : State) (p : Nat) : Nat := s.fld F.PRT_STATUS_PULET p

/-- How many frames may be unacknowledged on a port (R374, R392). -/
def State.txWindow (s : State) (p : Nat) : Nat := max 1 (min 128 (s.fld F.PRT_LINK_WIN p))

/-- Sends a DATA frame with the next SEQ and keeps it until it is acknowledged (R374). -/
def State.sendNow (s : State) (p : Nat) (f : Frame) : State :=
  let k := s.port p
  let f := { f with seq := k.txSeq, ackn := k.rxSeq }
  (s.setPort p { k with txSeq := k.txSeq + 1, retx := k.retx ++ [(f, s.time)] }).transmit p (.data f)

/-- Sends a DATA frame on a port that is UP, or lets it wait for room; on another port it is discarded (R373, R374). -/
def State.sendData (s : State) (p : Nat) (f : Frame) : State :=
  let k := s.port p
  if s.pulet p ≠ 2 then s.addSat F.PLT_DISCARD_COUNT
  else if k.retx.length < s.txWindow p ∧ k.waiting = [] then s.sendNow p f
  else s.setPort p { k with waiting := k.waiting ++ [f] }

/-- Sends the frames that waited, as far as there is room (R374). -/
def State.pump (s : State) (p : Nat) : State :=
  (s.port p).waiting.foldl (fun s f =>
    if s.pulet p = 2 ∧ (s.port p).retx.length < s.txWindow p then
      (s.updPort p (fun k => { k with waiting := k.waiting.drop 1 })).sendNow p f
    else s) s

/-! ### Routing (R376, R377) -/

/-- Forwards a received frame on a port, or sends an own one (R376). (DEDUCED, log entry 108.) -/
def State.forward (s : State) (own : Bool) (q : Nat) (f : Frame) : State :=
  if own then s.sendData q f
  else if f.hops = 0 ∨ s.pulet q ≠ 2 then s.addSat F.PLT_DISCARD_COUNT
  else (s.addWrap F.PLT_RELAY_COUNT).sendData q { f with hops := f.hops - 1 }

/-- Puts a frame among the requests and responses a port has delivered. -/
def State.enqueue (s : State) (p : Nat) (f : Frame) : State := s.updPort p (fun k => { k with delivered := k.delivered ++ [f] })

/-- Routes a frame that is for one chip or for the host (R376), answering `none` where it is for this chip. -/
def State.routeOne (s : State) (own : Bool) (f : Frame) : Option State :=
  if f.hostDst then
    some (s.forward own (s.fld F.PLT_ROUTE_PORT 12) f)
  else if f.dst.toNat = s.chip then none
  else if f.dst.toNat ≤ 11 ∧ s.bit F.PLT_ROUTE_VALID f.dst.toNat then
    some (s.forward own (s.fld F.PLT_ROUTE_PORT f.dst.toNat) f)
  else some (s.addSat F.PLT_DISCARD_COUNT)

/-- Sends an own frame to one chip or the host. -/
def State.sendFrame (s : State) (f : Frame) : State :=
  let f := sealed f
  match s.routeOne true f with
  | some s => s
  | none => s.enqueue 0 f

/-- Delivers a frame locally: END_TO_END_CRC_CHECK first, then its type (R371, R377). (DEDUCED, log entry 107.) -/
def State.deliver (s : State) (p : Nat) (f : Frame) : State :=
  if f.crc ≠ frameCheck f then
    let s := (s.addSat F.PLT_E2E_ERR_COUNT).setBit F.PLT_EVT_E2E
    if answered f && (decide (f.src.toNat ≤ 11) || f.hostSrc) then s.sendFrame (s.reply f 0x0A) else s
  else if actingTypes.contains f.mtype.toNat then s.enqueue p f
  else if hostTypes.contains f.mtype.toNat then s
  else s.addSat F.PLT_DISCARD_COUNT

/-- Forwards a frame on the ports of a mask but its arrival port. (DEDUCED, log entry 109.) -/
def State.spread (s : State) (arrival : Option Nat) (mask : Nat) (f : Frame) : State :=
  (List.range 4).foldl (fun s q =>
    if mask.testBit q ∧ arrival ≠ some q then s.forward arrival.isNone q f else s) s

/-- Whether the routing delivers a frame locally (R376). -/
def State.isLocal (s : State) (f : Frame) : Bool :=
  if f.mtype = 9 ∧ f.dst = 15 then true
  else if f.mtype = 5 ∧ f.dst = 15 then s.bit F.PLT_MCG_LOCAL (f.group.toNat % 16)
  else !f.hostDst && f.dst.toNat == s.chip

/-- Routes a frame that has arrived at a port, or an own broadcast (R376, R388, R415). (DEDUCED, log entry 105.) -/
def State.route (s : State) (arrival : Option Nat) (f : Frame) : State :=
  let local_ (s : State) : State := if s.isLocal f then s.deliver (arrival.getD 0) f else s
  if f.mtype = 9 ∧ f.dst = 15 then (local_ s).spread arrival (s.fld F.PLT_BCAST_PORTS) f
  else if f.mtype = 5 ∧ f.dst = 15 then (local_ s).spread arrival (s.fld F.PLT_MCG_PORTS (f.group.toNat % 16)) f
  else match s.routeOne arrival.isNone f with
    | some s => s
    | none => s.deliver (arrival.getD 0) f

end Sys2Proof.Machine
end

