-- ==== Sys2Proof/Machine/Time.lean ====
section
/-! DEFINITION. Network time, the gPTP servo and its messages, flip instants and flip announcements (chapter 14). -/

namespace Sys2Proof.Machine

/-! ### Counter and network time (R394 to R398) -/

/-- A signed number held within `n` bits. (DESIGN CHOICE, log entry 96.) -/
def satSigned (n : Nat) (x : Int) : Int := clampInt (-(2 ^ (n - 1) : Int)) (2 ^ (n - 1) - 1) x

/-- Changes RATE at the present C: network time is re-anchored first, so that it is continuous (R395).  |RATE| never exceeds
500 ppm. (DESIGN CHOICE, log entry 94.) -/
def State.setRate (s : State) (rate : Int) : State :=
  let lim : Int := 500 * 2 ^ 40 / 1000000
  { s with tu := { s.tu with vA := s.ntV, cA := s.time, pendingRate := none } }.wr .TIME_RATE (BitVec.ofInt 32 (clampInt (-lim) lim rate))

/-- Sets or clears SYNCED, with its event (R402). -/
def State.setSynced (s : State) (on : Bool) : State :=
  if s.bit F.TIME_STATUS_SYNCED = on then s
  else (s.setFld F.TIME_STATUS_SYNCED (if on then 1 else 0)).setBit (if on then F.TIME_EVT_SYNCED else F.TIME_EVT_UNSYNCED)

/-- A step of network time by `n` ns (R398); the trim integrals become 0 (R412). -/
def State.stepTime (s : State) (n : Int) : State :=
  let s := { s with tu := { s.tu with vA := s.tu.vA + BitVec.ofInt 80 (n * 65536), lockRun := 0, trimJ := [] } }
  ((s.addSat F.TIME_STEPS_COUNT).setBit F.TIME_EVT_STEP).setSynced false

/-- A write of TIME_STEP_HI: the signed 64-bit step (R398). -/
def State.writeTimeStep (s : State) (v : Word) : State := s.stepTime (v ++ s.rd .TIME_STEP_LO : BitVec 64).toInt

/-- TIME_STEP (R398). -/
def execTimeStep (value : Word) (s : State) : Host.Outcome State Fault Refusal := done (s.writeTimeStep value)

/-- A read of TIME_NOW_LO: it captures TIME_NOW_HI and TIME_FRAC from the same C (R396). -/
def State.readTimeNow (s : State) : Word × State :=
  (BitVec.ofNat 32 s.nt, (s.wr .TIME_NOW_HI (BitVec.ofNat 32 (s.nt / 2 ^ 32))).wr .TIME_FRAC (BitVec.ofNat 32 (s.ntV.toNat % 65536)))

/-- TIME_NOW_READ (R396). -/
def execTimeNowRead (s : State) : Host.Outcome State Fault Refusal :=
  let (v, s) := s.readTimeNow
  done { s with readData := v }

/-- RATE_TAKE_EFFECT: the servo's new RATE takes effect, 1 µs after the C at which the Sync was timestamped (R400).
(DESIGN CHOICE, log entry 228.) -/
def execRateTakeEffect (s : State) : Host.Outcome State Fault Refusal :=
  done (match s.tu.pendingRate with
    | some (r, c) => if s.reached c then s.setRate r else s
    | none => s)

/-! ### Roles (R404, R422) -/

/-- Whether the device is grandmaster. -/
def State.grandmaster (s : State) : Bool := s.fld F.TIME_CTRL_ROLE == 1

/-- The configured role of a port: 0 DISABLED, 1 MASTER, 2 SLAVE, 3 PASSIVE. -/
def State.roleField (s : State) (p : Nat) : Nat := (s.rd .TIME_PORTS).toNat / 4 ^ p % 4

/-- The SLAVE port: the first so configured, none in a grandmaster (R422). -/
def State.slavePort (s : State) : Option Nat :=
  if s.grandmaster then none else (List.range 4).find? (fun p => s.roleField p == 2)

/-- The role a port acts in: a second SLAVE acts as PASSIVE. -/
def State.ptpRole (s : State) (p : Nat) : Nat :=
  if s.roleField p = 2 ∧ s.slavePort ≠ some p then 3 else s.roleField p

/-- Whether gPTP runs on a port. -/
def State.ptpOn (s : State) (p : Nat) : Bool := s.bit F.TIME_CTRL_GPTP_EN && s.ptpRole p != 0

/-- 2^x s in ns, for the logarithm x of an interval (R404). -/
def intervalNs (x : Int) : Nat := if x < 0 then 1000000000 / 2 ^ (-x).toNat else 1000000000 * 2 ^ x.toNat

/-- The interval of Pdelay_Req in ns: 2^LOG_PDELAY s, LOG_PDELAY held to −3 to 3 (R404, R422). -/
def State.pdelayInterval (s : State) : Nat := intervalNs (clampInt (-3) 3 (s.sfld F.TIME_GPTP_LOG_PDELAY))

/-- The sync interval in ns: 2^LOG_SYNC s, LOG_SYNC held to −7 to 0. -/
def State.syncInterval (s : State) : Nat := intervalNs (clampInt (-7) 0 (s.sfld F.TIME_GPTP_LOG_SYNC))

/-! ### Servo (R399 to R403) -/

/-- A raster locked to network time shows the time unit's HOLDOVER (R413). -/
def State.noteHoldover (s : State) : State :=
  [0, 1].foldl (fun s r => if s.running r && s.frc F.TMG_CTRL_LOCK r == 2 then
    s.setFld F.TMG_STATUS_HOLDOVER (s.fld F.TIME_STATUS_HOLDOVER) r else s) s

/-- The rate limit in units of 2^−40 (R400). -/
def State.rateLimit (s : State) : Int := (min 500 (s.fld F.TIME_LIMIT_RATE_PPM) : Nat) * 2 ^ 40 / 1000000

/-- The servo acts on the offset θ of a Sync that was timestamped at `c` (R400 to R402). -/
def State.servo (s : State) (θ : Int) (c : Nat) : State :=
  let stepLim : Int := 1000 * (max 1 (s.fld F.TIME_LIMIT_STEP_US) : Nat)
  let lock : Int := (s.fld F.TIME_SERVO_LOCK_NS : Nat)
  if s.bit F.TIME_CTRL_STEP_EN ∧ stepLim < θ.natAbs then s.stepTime (-θ)
  else
    let g : Rat := (θ * 2 ^ 40 : Int) / (s.syncInterval : Rat)
    let lim := s.rateLimit
    let i := clampInt (-lim) lim ((s.rd .TIME_INTEG).toInt + ratRound ((s.fld F.TIME_SERVO_KI : Nat) * g / 256))
    let rate := clampInt (-lim) lim (-(ratRound ((s.fld F.TIME_SERVO_KP : Nat) * g / 256) + i))
    let run := if θ.natAbs ≤ lock then s.tu.lockRun + 1 else 0
    let s := { s with tu := { s.tu with pendingRate := some (rate, (c + 1000) % 2 ^ 64), lockRun := run } }.wr .TIME_INTEG (BitVec.ofInt 32 i)
    if 2 * lock < θ.natAbs then s.setSynced false
    else if max 1 (s.fld F.TIME_SERVO_LOCK_CNT) ≤ run then s.setSynced true
    else s

/-- A valid Sync of the SLAVE port, received at NT `tr` and counter `c` with its origin, correction and rate offset: it is relayed on every MASTER
port, and its offset drives the servo (R399, R403, R406). (DEDUCED, log entry 90; PRESUMED, log entry 176.) -/
def State.useSync (s : State) (p : Nat) (m : PtpMsg) (tr : Int) (c : Nat) : State :=
  let delay := s.fld F.PTP_DELAY_NS p
  let out := { m with rateOffset := m.rateOffset + 2 * s.rd .PTP_NRR p }
  let send (s : State) (q : Nat) : State :=
    if s.ptpRole q = 1 then s.transmit q (.relaySync out tr delay) else s
  let s := (List.range 4).foldl send s
  let θ := roundDiv ((tr - (m.stamp : Int)) * 65536 - m.correction.toInt - (delay : Int) * 256) 65536
  let s := s.wr .TIME_OFFSET (BitVec.ofInt 32 (satSigned 32 θ))
  let s : State := { s with tu := { s.tu with lastSync := s.time } }
  let s := (s.setFld F.TIME_STATUS_HOLDOVER 0).noteHoldover
  if s.bit F.TIME_CTRL_SERVO_EN ∧ !s.grandmaster then s.servo θ c else s

/-- A received Sync (R399, R406): a two-step one waits for its Follow_Up.
(DESIGN CHOICE, log entry 91; PRESUMED, log entry 176.) -/
def State.onSync (s : State) (p : Nat) (m : PtpMsg) : State :=
  if !s.bit F.TIME_CTRL_GPTP_EN || s.ptpRole p != 2 then s
  else
    let s := s.addWrap F.PTP_SYNCS_RX 1 p
    let tr := s.rxTime p
    if m.twoStep then s.setPtp p { (s.port p).ptp with sync := some (m, tr, s.time) }
    else (s.setPtp p { (s.port p).ptp with sync := none }).useSync p m tr s.time

/-- A received Follow_Up, within one sync interval of its Sync (R406). (DEDUCED, log entry 92.) -/
def State.onFollowUp (s : State) (p : Nat) (m : PtpMsg) : State :=
  if !s.bit F.TIME_CTRL_GPTP_EN || s.ptpRole p != 2 then s
  else match (s.port p).ptp.sync with
    | some (m0, tr, c) =>
      if m0.seqId = m.seqId ∧ s.elapsed c ≤ s.syncInterval then (s.setPtp p { (s.port p).ptp with sync := none }).useSync p m tr c else s
    | none => s

/-- FOLLOW_UP_TIMEOUT: a two-step Sync without its Follow_Up within one sync interval is discarded (R406).
(DESIGN CHOICE, log entry 228.) -/
def execFollowUpTimeout (p : Fin 4) (s : State) : Host.Outcome State Fault Refusal :=
  done (match (s.port p).ptp.sync with
    | some (_, _, c) => if s.syncInterval < s.elapsed c then s.setPtp p { (s.port p).ptp with sync := none } else s
    | none => s)

/-- Whether no valid Sync has come for SYNC_TMO sync intervals, of which 0 acts as 1 (R403, R422). (DEDUCED, log entry 241.) -/
def State.syncLost (s : State) : Bool := decide (max 1 (s.fld F.TIME_GPTP_SYNC_TMO) * s.syncInterval ≤ s.elapsed s.tu.lastSync)

/-- HOLDOVER_ENTRY: no valid Sync for SYNC_TMO intervals (R403). (DESIGN CHOICE, log entry 228.) -/
def execHoldoverEntry (s : State) : Host.Outcome State Fault Refusal :=
  done (if s.slavePort.isNone || !s.bit F.TIME_CTRL_SERVO_EN || s.bit F.TIME_STATUS_HOLDOVER || !s.syncLost then s
    else
      let s := s.setRate (-(s.rd .TIME_INTEG).toInt)
      let s := { s with tu := { s.tu with lockRun := 0 } }
      (((s.setFld F.TIME_STATUS_HOLDOVER 1).setBit F.TIME_EVT_HOLDOVER).setSynced false).noteHoldover)

/-- A message with a sequence number, and zero in its other fields. -/
def ptpBlank (n : BitVec 16) : PtpMsg := { seqId := n, seconds := 0, nanos := 0, correction := 0, rateOffset := 0, twoStep := false }

/-- GM_SYNC_SEND: a grandmaster sends a Sync on a MASTER port, a sync interval after the one before (R407).
(DESIGN CHOICE, log entry 228.) -/
def execGmSyncSend (p : Fin 4) (s : State) : Host.Outcome State Fault Refusal :=
  let k := (s.port p).ptp
  done (if !s.grandmaster || !s.bit F.TIME_CTRL_GPTP_EN || s.ptpRole p != 1 || !s.lapsed k.syncAt s.syncInterval then s
    else (s.setPtp p { k with syncSeq := k.syncSeq + 1, syncAt := some s.time }).transmit p (.gmSync (ptpBlank k.syncSeq)))

/-! ### Peer delay (R404) -/

/-- PDELAY_REQ_SEND: 2^LOG_PDELAY s after the request before (R404). (DESIGN CHOICE, log entry 228.) -/
def execPdelayReqSend (p : Fin 4) (s : State) : Host.Outcome State Fault Refusal :=
  let k := (s.port p).ptp
  done (if !s.ptpOn p || !s.lapsed k.reqAt s.pdelayInterval then s
    else (s.setPtp p { k with reqSeq := k.reqSeq + 1, reqAt := some s.time, reqSent := none, resp := none }).transmit p
      (.pdelayReq (ptpBlank (k.reqSeq + 1))))

/-- A received Pdelay_Req is answered with Pdelay_Resp, which carries its receipt, and Pdelay_Resp_Follow_Up, which carries the
response's departure (R404). -/
def State.onPdelayReq (s : State) (p : Nat) (m : PtpMsg) : State :=
  if !s.ptpOn p then s
  else (s.transmit p (.pdelayResp { ptpStamped (ptpBlank m.seqId) (s.rxTime p) with twoStep := true })).transmit p
    (.pdelayRespFollowUp (ptpBlank m.seqId))

/-- A received Pdelay_Resp (R404). -/
def State.onPdelayResp (s : State) (p : Nat) (m : PtpMsg) : State :=
  let k := (s.port p).ptp
  if !s.ptpOn p || m.seqId != k.reqSeq || k.reqSent.isNone then s
  else s.setPtp p { k with resp := some (m, s.rxTime p) }

/-- A received Pdelay_Resp_Follow_Up completes an exchange: neighborRateRatio from this response and the one before, and
meanLinkDelay, corrected by PTP_ASYM (R404). (DEDUCED, log entry 93; PRESUMED, log entry 177.) -/
def State.onPdelayRespFollowUp (s : State) (p : Nat) (m : PtpMsg) : State :=
  let k := (s.port p).ptp
  if !s.ptpOn p then s
  else match k.reqSent, k.resp with
    | some t1, some (r, t4) =>
      if m.seqId ≠ k.reqSeq then s
      else
        let t2 : Rat := (r.stamp : Rat) - (r.correction.toInt : Rat) / 65536
        let t3 : Rat := (m.stamp : Rat) + (m.correction.toInt : Rat) / 65536
        let nrr : Rat := match k.lastPair with
          | some (u3, u4) => if (t4 : Rat) = u4 then 1 else (t3 - u3) / ((t4 : Rat) - u4)
          | none => 1
        let delay : Rat := (nrr * ((t4 - t1 : Int) : Rat) - (t3 - t2)) / 2 + (s.sfld F.PTP_ASYM_ASYM p : Rat) / 16
        let s := s.wr .PTP_NRR (BitVec.ofInt 32 (satSigned 32 (ratRound ((nrr - 1) * 2 ^ 40)))) p
        let s := s.wr .PTP_DELAY (BitVec.ofInt 32 (clampInt 0 (2 ^ 32 - 1) (ratRound (delay * 256)))) p
        s.setPtp p { k with reqSent := none, resp := none, lastPair := some (t3, (t4 : Rat)) }
    | _, _ => s

/-! ### Flip schedule (R410 to R413) -/

/-- F(0) of a raster, as in force (R410). -/
def State.flipBase (s : State) (r : Nat) : Nat := s.frc F.FLIP_BASE_LO_NS r + s.frc F.FLIP_BASE_HI_NS r * 2 ^ 32

/-- FLIP_DEN of a raster, as in force; 0 acts as 1. (DEDUCED, log entry 95.) -/
def State.flipDen (s : State) (r : Nat) : Nat := max 1 (s.frc F.FLIP_CFG_DEN r)

/-- The flip instant F(k) of a raster, ns (R410). -/
def State.flipAt (s : State) (r k : Nat) : Nat := s.flipBase r + k * s.frc F.FLIP_NUM_NS r / s.flipDen r

/-- The greatest k with F(k) no later than `t`; 0 where there is none (R410). -/
def State.flipBefore (s : State) (r : Nat) (t : Int) : Nat :=
  let num := s.frc F.FLIP_NUM_NS r
  let d := (t - s.flipBase r).toNat
  let k := d * s.flipDen r / (max 1 num)
  if (s.flipAt r (k + 1) : Int) ≤ t then k + 1 else k

/-- The index whose flip instant is nearest to `t` (R412). -/
def State.flipNearest (s : State) (r : Nat) (t : Int) : Nat :=
  let k := s.flipBefore r t
  if ((s.flipAt r (k + 1) : Int) - t).natAbs < (t - s.flipAt r k).natAbs then k + 1 else k

/-- FLIP_EDGE: the first line of a NETWORK-locked raster's vertical sync leaves the port (R412, R413).
(DEDUCED, log entry 95; DESIGN CHOICE, log entry 96.) -/
def execFlipEdge (r : Fin 2) (s : State) : Host.Outcome State Fault Refusal :=
  let r := r.val
  done (if !s.running r || s.frc F.TMG_CTRL_LOCK r != 2 then s
    else
      let k := s.flipNearest r s.ntInt
      let e : Int := s.ntInt - s.flipAt r k
      let s := s.wr .FLIP_ERR (BitVec.ofInt 32 (satSigned 32 e)) r
      let s := if r = 0 then (s.wr .FLIP_INDEX_LO (BitVec.ofNat 32 k)).wr .FLIP_INDEX_HI (BitVec.ofNat 32 (k / 2 ^ 32)) else s
      let s := s.setFld F.TMG_ERR_ERR (lowBits 16 (satSigned 16 (ratRound (16 * (e : Rat) / s.linePeriod r)))) r
      let lim : Rat := ((min 500 (s.frc F.TMG_LOCK_TRIM_PPM r) : Nat) : Rat) / 1000000
      let period : Rat := ((s.frc F.FLIP_NUM_NS r : Nat) : Rat) / ((s.flipDen r : Nat) : Rat)
      let s :=
        if e.natAbs ≤ s.fld F.FLIP_CFG_CAPTURE_NS then
          let j := s.tu.trimJ.look r 0 + (e : Rat) / (8 * period)
          let t := clampRat (-lim) lim ((e : Rat) / (2 * period) + j)
          { s with tu := { s.tu with trimJ := s.tu.trimJ.set r 0 (clampRat (-lim) lim j), trim := s.tu.trim.set r 0 t }
                   rasters := s.rasters.put r { s.raster r with adjNext := 0 } }
        else
          let step : Int := (s.frc F.TMG_LOCK_VFP_STEP r : Nat)
          let low : Int := (s.frc F.TMG_VFPMIN_LINES r : Int) - s.frc F.TMG_VS_VFP r
          let adj : Int := max low (clampInt (-step) step (-(ratRound ((e : Rat) / s.linePeriod r))))
          { s with tu := { s.tu with trim := s.tu.trim.set r 0 0 }
                   rasters := s.rasters.put r { s.raster r with adjNext := adj } }
      let run := if e.natAbs ≤ s.fld F.FLIP_CFG_TOL_NS then min 8 (s.tu.flipRun.look r 0 + 1) else 0
      ({ s with tu := { s.tu with flipRun := s.tu.flipRun.set r 0 run } }.setLocked r (run == 8)).noteHoldover)

/-! ### Flip announcements (R415 to R419) -/

/-- Sends the FLIP message of a frame boundary of raster 0 (R415): the closing frame's sequence number and its lowest minimum
slack. (DEDUCED, log entry 97.) -/
def State.announceFlip (s : State) (seq : Word) (slack : Int) : State :=
  if !s.bit F.ANN_CTRL_EN then s
  else
    let edge : Int := s.ntInt + ratRound (((s.frc F.TMG_VS_VFP 0 : Int) + (s.raster 0).adj : Int) * s.linePeriod 0)
    let flag (b : Bool) (k : Nat) : Nat := if b then 2 ^ k else 0
    let flags := flag (s.bit F.TIME_STATUS_SYNCED) 0 + flag (s.bit F.TIME_STATUS_HOLDOVER) 1 + flag (s.bit F.TMG_STATUS_LOCKED 0) 2 +
      flag s.inTakeover 3 + flag (s.bit F.TMG_STATUS_LOCKED 1) 4
    let tko := if s.inTakeover && s.bit F.ANN_TKO_VALID then s.fld F.ANN_TKO_CHIP else 15
    let data := leBytes 8 (s.flipNearest 0 edge) ++ leBytes 4 seq.toNat ++ leBytes 4 (s.rd .FLIP_ERR 0).toNat ++
      [BitVec.ofNat 8 flags, BitVec.ofNat 8 tko, 0, 0] ++ leBytes 4 (lowBits 32 slack)
    s.route none (sealed { blankFrame 9 15 s.chip with data := data })

/-- Takes the oldest delivered frame of a port where it has one of the types given. -/
def State.takeHead (s : State) (p : Nat) (types : Nat → Bool) : Option (Frame × State) :=
  match (s.port p).delivered with
  | f :: r => if types f.mtype.toNat then some (f, s.updPort p (fun k => { k with delivered := r })) else none
  | [] => none

/-- FLIP: a delivered announcement is recorded for its sender (R416, R418). (DESIGN CHOICE, log entry 99.) -/
def execFlip (p : Fin 4) (s : State) : Host.Outcome State Fault Refusal :=
  done (match s.takeHead p (· == 9) with
    | none => s
    | some (f, s) =>
      let j := f.src.toNat
      if j = s.chip ∨ 11 < j ∨ f.data.length ≠ 24 then s
      else if (s.fld F.ANN_LOST_LOST).testBit j then s.setBit F.TIME_EVT_RETURNED
      else
        let k := leField f.data 0 8
        let s := ((s.setFld F.ANN_STAT_SEEN 1 j).setFld F.ANN_STAT_FLAGS (leField f.data 16 1) j).setFld F.ANN_STAT_INDEX k j
        { s with tu := { s.tu with arrived := s.tu.arrived.put j (s.tu.arrived.look j [] ++ [k]) } })

/-- AUTOMATIC_TAKEOVER as a partner's LOST bit is set (R419): it waits for raster 0's next frame boundary. -/
def State.noteLost (s : State) (j : Nat) : State :=
  if !s.bit F.ANN_CTRL_AUTO || !s.bit F.ANN_TKO_VALID || s.fld F.ANN_TKO_CHIP != j then s
  else if s.frc F.SRC_CTRL_MODE 1 = 1 ∧ s.bit F.TMG_STATUS_LOCKED 1 then { s with tu := { s.tu with takeover := true } }
  else s.setBit F.TIME_EVT_AUTO_SKIP

/-- PARTNER_LOST (R418). -/
def State.partnerLost (s : State) (j : Nat) : State :=
  let s := (s.setBit F.ANN_LOST_LOST j).setBit F.TIME_EVT_PARTNER_LOST
  (s.raise { code := 0x15, cls := 10, unit := j }).noteLost j

/-- FLIP_ANNOUNCE_CHECK at F(k) + WAIT_US of raster 0 (R417, R418). (DEDUCED, log entry 97.) -/
def execFlipAnnounceCheck (s : State) : Host.Outcome State Fault Refusal :=
  let half := s.frc F.FLIP_NUM_NS 0 / (2 * s.flipDen 0)
  let at_ : Int := s.ntInt - (min (1000 * s.fld F.ANN_CTRL_WAIT_US) half : Nat)
  done (if !s.running 0 || s.frc F.TMG_CTRL_LOCK 0 != 2 || decide (at_ < (s.flipBase 0 : Int)) then s
    else
      let k := s.flipBefore 0 at_
      let s := (List.range 12).foldl (fun s j =>
        if !(s.fld F.ANN_WATCH_CHIPS).testBit j || j == s.chip || !s.bit F.ANN_STAT_SEEN j || (s.fld F.ANN_LOST_LOST).testBit j then s
        else
          let got := s.tu.arrived.look j []
          let s := s.addSat F.ANN_BADIDX_COUNT (got.filter (· != k)).length
          if got.contains k then s.setFld F.ANN_STAT_MISSES 0 j
          else
            let n := s.fld F.ANN_STAT_MISSES j + 1
            let s := s.setFld F.ANN_STAT_MISSES n j
            if max 1 (s.fld F.ANN_CTRL_MISS_LIMIT) ≤ n then s.partnerLost j else s) s
      { s with tu := { s.tu with arrived := [] } })

/-- A write of ANN_LOST: counting restarts from MISSES 0 for a chip whose bit is cleared (R418). -/
def State.writeAnnLost (s : State) (v : Word) : State :=
  let s := (List.range 12).foldl (fun s j => if v.getLsbD j && (s.fld F.ANN_LOST_LOST).testBit j then s.setFld F.ANN_STAT_MISSES 0 j else s) s
  s.plainWrite .ANN_LOST v

/-- ANN_LOST_CLEAR (R418). -/
def execAnnLostClear (value : Word) (s : State) : Host.Outcome State Fault Refusal := done (s.writeAnnLost value)

/-- A write of ANN_CTRL: SEEN tells of announcements since EN was set (R422). -/
def State.writeAnnCtrl (s : State) (v : Word) : State :=
  let s := if v.getLsbD 0 && !s.bit F.ANN_CTRL_EN then (List.range 12).foldl (fun s j => s.setFld F.ANN_STAT_SEEN 0 j) s else s
  s.plainWrite .ANN_CTRL v

end Sys2Proof.Machine
end

