-- ==== Sys2Proof/Machine/Link.lean ====
section
/-! DEFINITION. Receiving on the Ethernet ports: the link states, hop-by-hop reliability, held frames, and gPTP messages as
they arrive (R368, R369, R373 to R375, R391). -/

namespace Sys2Proof.Machine

/-! ### Link states (R373) -/

/-- The port enters SYNCING and discards its retransmit buffer (R373). -/
def State.startSync (s : State) (p : Nat) : State :=
  (s.updPort p (fun k => { k with retx := [], rounds := 0, ackSent := false, ackSeen := false, syncAt := none, nakSent := false })).setFld
    F.PRT_STATUS_PULET 1 p

/-- PHY_LINK_UP at an advertised speed (R368, R373). -/
def execPhyLinkUp (p : Fin 4) (slow master : Bool) (s : State) : Host.Outcome State Fault Refusal :=
  done (if !s.bit F.PRT_CTRL_EN p || s.bit F.PRT_STATUS_PHY_UP p ||
      !(s.fld F.PRT_CTRL_SPEEDS p).testBit (if slow then 1 else 0) then s
    else
      let s := (s.setFld F.PRT_STATUS_PHY_UP 1 p).setFld F.PRT_STATUS_SPEED (if slow then 1 else 0) p
      ((s.setFld F.PRT_STATUS_MASTER (if master then 1 else 0) p).setBit F.PRT_EVT_LINK_UP 0 p).startSync p)

/-- The PHY link of a port goes down (R373). (DEDUCED, log entry 100.) -/
def State.linkDown (s : State) (p : Nat) : State :=
  if !s.bit F.PRT_STATUS_PHY_UP p then s
  else
    let s := ((s.setFld F.PRT_STATUS_PHY_UP 0 p).setBit F.PRT_EVT_LINK_DOWN 0 p).setFld F.PRT_STATUS_PULET 0 p
    s.updPort p (fun k => { k with retx := [], rounds := 0 })

/-- PHY_LINK_DOWN (R373). -/
def execPhyLinkDown (p : Fin 4) (s : State) : Host.Outcome State Fault Refusal := done (s.linkDown p)

/-- A write of PRT_CTRL: EN clear takes the link down, RESYNC makes the port enter SYNCING (R373, R392). -/
def State.writePrtCtrl (s : State) (p : Nat) (v : Word) : State :=
  let s := s.plainWrite .PRT_CTRL v p
  let s := if s.bit F.PRT_CTRL_EN p then s else s.linkDown p
  if v.getLsbD 31 then s.startSync p else s

/-- PORT_RESYNC: a write of PRT_CTRL with RESYNC and the other fields as they are (R373). -/
def execPortResync (p : Fin 4) (s : State) : Host.Outcome State Fault Refusal :=
  done (s.writePrtCtrl p (s.rd .PRT_CTRL p ||| 0x80000000))

/-- SYNC_TIMER: a SYNCING port sends SYNC, 10 µs after the one before (R373). (DESIGN CHOICE, log entry 228.) -/
def execSyncTimer (p : Fin 4) (s : State) : Host.Outcome State Fault Refusal :=
  done (if s.pulet p = 1 ∧ s.bit F.PLT_CTRL_EN ∧ s.lapsed (s.port p).syncAt 10000 then
    (s.updPort p (fun k => { k with syncAt := some s.time })).transmit p (.sync (s.port p).rxSeq) else s)

/-- A SYNCING port that has sent and received SYNC_ACK zeroes its sequences and is UP (R373). (DEDUCED, log entry 100.) -/
def State.tryUp (s : State) (p : Nat) : State :=
  let k := s.port p
  if s.pulet p = 1 ∧ k.ackSent ∧ k.ackSeen then
    let s := s.setPort p { k with txSeq := 0, rxSeq := 0, retx := [], rounds := 0, nakSent := false }
    ((s.setFld F.PRT_STATUS_PULET 2 p).setBit F.PRT_EVT_SYNCED 0 p).pump p
  else s

/-- A received SYNC is answered (R373). -/
def State.onSyncFrame (s : State) (p : Nat) : State :=
  let s := s.transmit p (.syncAck (s.port p).rxSeq)
  if s.pulet p = 1 then (s.updPort p (fun k => { k with ackSent := true })).tryUp p else s

/-- A received SYNC_ACK (R373). -/
def State.onSyncAck (s : State) (p : Nat) : State :=
  if s.pulet p = 1 then (s.updPort p (fun k => { k with ackSeen := true })).tryUp p else s

/-! ### Hop-by-hop reliability (R374, R375) -/

/-- Whether sequence number `a` lies below `b`, modulo 2^16. -/
def seqBelow (a b : BitVec 16) : Bool := a != b && decide ((b - a).toNat < 2 ^ 15)

/-- ACKN received: the frames below it are released, and frames that waited are sent (R374). (DEDUCED, log entry 102.) -/
def State.acked (s : State) (p : Nat) (ackn : BitVec 16) : State :=
  let k := s.port p
  let kept := k.retx.filter (fun e => !seqBelow e.1.seq ackn)
  if kept.length = k.retx.length then s
  else (s.setPort p { k with retx := kept, rounds := 0 }).pump p

/-- LINK_RETRY_EXHAUSTED: the port enters FAILED (R375). -/
def State.linkFailed (s : State) (p : Nat) : State :=
  let s := (s.updPort p (fun k => { k with retx := [], rounds := 0 })).setFld F.PRT_STATUS_PULET 3 p
  (s.setBit F.PRT_EVT_RETRY_EXHAUSTED 0 p).raise { code := 0x08, cls := 8, unit := p }

/-- A go-back-N round: every unacknowledged frame is sent again, in order, unless RETRY_LIM rounds in succession have released
none (R374, R375). (DEDUCED, log entry 103.) -/
def State.goBack (s : State) (p : Nat) : State :=
  let k := s.port p
  if k.retx = [] then s
  else if max 1 (s.fld F.PRT_LINK_RETRY_LIM p) ≤ k.rounds then s.linkFailed p
  else
    let frames := k.retx.map (fun e => { e.1 with ackn := k.rxSeq })
    let s := s.setPort p { k with rounds := k.rounds + 1, retx := frames.map (fun f => (f, s.time)) }
    frames.foldl (fun s f => (s.addSat F.PRT_RETX_COUNT 1 p).transmit p (.data f)) s

/-- The bytes a frame takes in a port's receive buffer of 256 KB. -/
def bufferBytes (f : Frame) : Nat := 52 + f.data.length

/-- Whether a port has no receive buffer free for a frame (R374, R375). -/
def State.noBuffer (s : State) (p : Nat) (f : Frame) : Bool :=
  decide (262144 < (s.port p).delivered.foldl (fun n g => n + bufferBytes g) (bufferBytes f))

/-- A received DATA frame: its ACKN; then, where a receive buffer is free, its SEQ; in order it is acknowledged and routed (R374,
R376). (DEDUCED, log entry 102; DESIGN CHOICE, log entry 101.) -/
def State.onData (s : State) (p : Nat) (f : Frame) : State :=
  if s.pulet p ≠ 2 then s
  else
    let s := s.acked p f.ackn
    let k := s.port p
    if s.noBuffer p f then s.addSat F.PRT_NOBUF_COUNT 1 p
    else if f.seq = k.rxSeq then
      ((s.setPort p { k with rxSeq := k.rxSeq + 1, nakSent := false }).transmit p (.ack (k.rxSeq + 1))).route (some p) f
    else if seqBelow k.rxSeq f.seq then
      if k.nakSent then s else (s.setPort p { k with nakSent := true }).transmit p (.nak k.rxSeq)
    else s.transmit p (.ack k.rxSeq)

/-- A received ACK (R374). -/
def State.onAck (s : State) (p : Nat) (ackn : BitVec 16) : State := if s.pulet p = 2 then s.acked p ackn else s

/-- A received NAK (R374). -/
def State.onNak (s : State) (p : Nat) (ackn : BitVec 16) : State := if s.pulet p = 2 then (s.acked p ackn).goBack p else s

/-- Whether a port's oldest unacknowledged frame is older than PRT_LINK.RTO, of which values below 5 act as 5 (R374, R392). -/
def State.retxDue (s : State) (p : Nat) : Bool :=
  match (s.port p).retx with
  | [] => false
  | e :: _ => decide (1000 * max 5 (s.fld F.PRT_LINK_RTO p) < s.elapsed e.2)

/-- RETRANSMIT_TIMEOUT: the oldest unacknowledged frame is older than RTO (R374).
(DEDUCED, log entry 103; DESIGN CHOICE, log entry 228.) -/
def execRetransmitTimeout (p : Fin 4) (s : State) : Host.Outcome State Fault Refusal :=
  done (if s.pulet p = 2 ∧ s.retxDue p then s.goBack p else s)

/-! ### Frames as they arrive (R369) -/

/-- The frame that a port's MAC takes from bytes with a correct FCS, sorted by EtherType; none where it does not accept it: a length
outside 64 to 9,018, an 802.1Q tag, or another destination address (R368, R369). (DEDUCED, log entry 239.) -/
def State.sortFrame (s : State) (p : Nat) (l : List Byte) : Option WireFrame :=
  let da := BitVec.ofNat 48 (beField l 0 6)
  let etype := BitVec.ofNat 16 (beField l 12 2)
  if l.length + 4 < 64 ∨ 9018 < l.length + 4 ∨ etype = 0x8100 ∨ (da ≠ s.ownAddress p ∧ da ≠ BitVec.allOnes 48) then none
  else if etype = s.puletEtype then some (parsePulet (l.drop 14))
  else if etype = ptpEtype then some (parsePtp (l.drop 14))
  else some .other

/-- What a frame does that has passed a port's MAC and injection: it goes to Pulet or to the time unit, or is discarded and counted
(R369); a bad FCS is counted.  The time unit takes messages of domain 0 alone (R404). -/
def State.accept (s : State) (p : Nat) (x : WireFrame × Option Nat) : State :=
  if x.2.isSome then s.addSat F.PRT_FCS_ERR_COUNT 1 p
  else
    let pulet := s.bit F.PLT_CTRL_EN
    let inDomain (m : PtpMsg) (t : State) : State := if m.domain = 0 then t else s
    match x.1 with
    | .data f => if pulet then s.onData p f else s
    | .ack n => if pulet then s.onAck p n else s
    | .nak n => if pulet then s.onNak p n else s
    | .sync _ => if pulet then s.onSyncFrame p else s
    | .syncAck _ => if pulet then s.onSyncAck p else s
    | .ptpSync m => inDomain m (s.onSync p m)
    | .ptpFollowUp m => inDomain m (s.onFollowUp p m)
    | .pdelayReq m => inDomain m (s.onPdelayReq p m)
    | .pdelayResp m => inDomain m (s.onPdelayResp p m)
    | .pdelayRespFollowUp m => inDomain m (s.onPdelayRespFollowUp p m)
    | .relaySync _ _ _ | .gmSync _ | .ptpIgnored | .malformed => s
    | .other => s.addSat F.PRT_OTHER_COUNT 1 p

/-- A frame with a correct FCS and a destination address of this port arrives (R369). (DESIGN CHOICE, log entry 104.) -/
def State.arrive (s : State) (p : Nat) (f : WireFrame) : State :=
  if !s.bit F.PRT_CTRL_EN p || !s.bit F.PRT_STATUS_PHY_UP p then s
  else
    let (out, s) := (s.addWrap F.PRT_RXF_COUNT 1 p).inject p true f
    out.foldl (fun s x => s.accept p x) s

/-- SYNC (R373). -/
def execSync (p : Fin 4) (s : State) : Host.Outcome State Fault Refusal := done (s.arrive p (.sync 0))

/-- SYNC_ACK (R373). -/
def execSyncAck (p : Fin 4) (s : State) : Host.Outcome State Fault Refusal := done (s.arrive p (.syncAck 0))

/-- DATA (R374). -/
def execData (p : Fin 4) (f : Frame) (s : State) : Host.Outcome State Fault Refusal := done (s.arrive p (.data f))

/-- ACK (R374). -/
def execAck (p : Fin 4) (ackn : BitVec 16) (s : State) : Host.Outcome State Fault Refusal := done (s.arrive p (.ack ackn))

/-- NAK (R374). -/
def execNak (p : Fin 4) (ackn : BitVec 16) (s : State) : Host.Outcome State Fault Refusal := done (s.arrive p (.nak ackn))

/-- PTP_SYNC (R399). -/
def execPtpSync (p : Fin 4) (m : PtpMsg) (s : State) : Host.Outcome State Fault Refusal := done (s.arrive p (.ptpSync m))

/-- PTP_FOLLOW_UP (R406). -/
def execPtpFollowUp (p : Fin 4) (m : PtpMsg) (s : State) : Host.Outcome State Fault Refusal := done (s.arrive p (.ptpFollowUp m))

/-- PDELAY_REQ (R404). -/
def execPdelayReq (p : Fin 4) (m : PtpMsg) (s : State) : Host.Outcome State Fault Refusal := done (s.arrive p (.pdelayReq m))

/-- PDELAY_RESP (R404). -/
def execPdelayResp (p : Fin 4) (m : PtpMsg) (s : State) : Host.Outcome State Fault Refusal := done (s.arrive p (.pdelayResp m))

/-- PDELAY_RESP_FOLLOW_UP (R404). -/
def execPdelayRespFollowUp (p : Fin 4) (m : PtpMsg) (s : State) : Host.Outcome State Fault Refusal :=
  done (s.arrive p (.pdelayRespFollowUp m))

/-- ANNOUNCE: discarded, and not counted in PRT_OTHER (R404). -/
def execAnnounce (p : Fin 4) (s : State) : Host.Outcome State Fault Refusal := done (s.arrive p .ptpIgnored)

/-- OTHER_FRAME: a frame as it stands on the wire, which the port sorts (R369). (DESIGN CHOICE, log entry 240.) -/
def execOtherFrame (raw : RawFrame) (s : State) : Host.Outcome State Fault Refusal :=
  done (match s.sortFrame raw.port raw.bytes with
    | some f => s.arrive raw.port f
    | none => s)

/-- FCS_ERROR: the frame is discarded and counted (R369). -/
def execFcsError (p : Fin 4) (s : State) : Host.Outcome State Fault Refusal :=
  done (if !s.bit F.PRT_CTRL_EN p || !s.bit F.PRT_STATUS_PHY_UP p then s else s.addSat F.PRT_FCS_ERR_COUNT 1 p)

/-! ### Held frames (R391) -/

/-- Lets a held frame go on: out of the port, or to the link layer. -/
def State.letGo (s : State) (p : Nat) (rx : Bool) (x : WireFrame × Option Nat) : State := if rx then s.accept p x else s.sendOut p x

/-- A write of PRT_FI_CTRL: EN 1 begins a count, EN 0 releases every held frame in order (R391). -/
def State.writeFiCtrl (s : State) (p : Nat) (v : Word) : State :=
  let s := s.plainWrite .PRT_FI_CTRL v p
  if s.bit F.PRT_FI_CTRL_EN p then
    (s.updPort p (fun k => { k with fiCount := 0, fiLfsr := BitVec.ofNat 16 (2 * s.fld F.PRT_FI_SEL_SEED p + 1) })).wr .PRT_FI_COUNT 0 p
  else
    let held := (s.port p).fiHeld
    held.foldl (fun s h => s.letGo p h.rx (h.frame, h.bad)) (s.updPort p (fun k => { k with fiHeld := [] }))

/-- FI_CTRL_WRITE (R391). -/
def execFiCtrlWrite (p : Fin 4) (value : Word) (s : State) : Host.Outcome State Fault Refusal := done (s.writeFiCtrl p value)

/-- FI_HOLD_RELEASE: a delay is over; its frame and those behind it go on (R391).
(DEDUCED, log entry 88; DESIGN CHOICE, log entry 228.) -/
def execFiHoldRelease (p : Fin 4) (s : State) : Host.Outcome State Fault Refusal :=
  let k := s.port p
  let ended (rx : Bool) : Bool := (k.fiHeld.find? (fun h => h.rx == rx && h.until_.isSome)).any (fun h => h.until_.any s.reached)
  done (match [false, true].find? ended with
    | none => s
    | some rx =>
      let (out, kept) := popDelay rx false k.fiHeld
      out.foldl (fun s x => s.letGo p rx x) (s.setPort p { k with fiHeld := kept }))

end Sys2Proof.Machine
end

