-- ==== Sys2Proof/Machine/Pulet.lean ====
section
/-! DEFINITION. Windows and the requests delivered to them: WRITE, SPLICE, READ, ATOMIC and MCAST (R379 to R383, R388, R389,
R244). -/

namespace Sys2Proof.Machine

/-! ### Windows (R379 to R382) -/

/-- The first address of a window. -/
def State.winBase (s : State) (w : Nat) : Nat := s.fld F.WIN_BASE_LO_ADDR w * 4096 + s.fld F.WIN_BASE_HI_ADDR w * 2 ^ 32

/-- The size of a window in bytes. -/
def State.winSize (s : State) (w : Nat) : Nat := s.fld F.WIN_SIZE_PAGES w * 4096

/-- Whether a range lies within one of the stores or within HyperRAM (R379, R385). -/
def State.inMemory (s : State) (a n : Nat) : Bool :=
  inStores (fun _ => true) a n || decide (hyperBase ≤ a ∧ a + n ≤ hyperBase + s.hyperSize)

/-- OPEN (R380): it clears the window's counters (R393). -/
def State.openWindow (s : State) (w : Nat) : State :=
  if s.fld F.WIN_STATUS_STATE w = 0 ∧ s.winSize w ≠ 0 ∧ s.inMemory (s.winBase w) (s.winSize w) then
    (((s.setFld F.WIN_STATUS_STATE 1 w).wr .WIN_CLOSED_CNT 0 w).wr .WIN_DENIED_CNT 0 w).wr .WIN_OVERRUN_CNT 0 w
  else s.setBit F.PLT_EVT_WIN_REJECT

/-- CLOSE (R382). -/
def State.closeWindow (s : State) (w : Nat) : State :=
  if s.fld F.WIN_STATUS_STATE w = 1 then s.setFld F.WIN_STATUS_STATE 2 w else s

/-- A write of WIN_CTRL, for the window WIN_SEL selects. -/
def State.writeWinCtrl (s : State) (v : Word) : State :=
  let w := s.fld F.WIN_SEL_WIN
  let s := if v.getLsbD 0 then s.openWindow w else s
  if v.getLsbD 1 then s.closeWindow w else s

/-- WINDOW_OPEN (R380). -/
def execWindowOpen (value : Word) (s : State) : Host.Outcome State Fault Refusal := done (s.writeWinCtrl value)

/-- WINDOW_CLOSE (R382). -/
def execWindowClose (value : Word) (s : State) : Host.Outcome State Fault Refusal := done (s.writeWinCtrl value)

/-- WINDOW_CLOSE_DONE: every accepted request has completed (R382). -/
def execWindowCloseDone (w : Fin 256) (s : State) : Host.Outcome State Fault Refusal :=
  let w := w.val
  done (if s.fld F.WIN_STATUS_STATE w = 2 then
    ((s.setFld F.WIN_STATUS_GEN (s.fld F.WIN_STATUS_GEN w + 1) w).setFld F.WIN_STATUS_STATE 0 w).setBit F.PLT_EVT_WIN_CLOSED_DONE
  else s)

/-- A write of a window's base, size, peers or rights: only while it is CLOSED (R379). -/
def State.writeWindow (s : State) (r : RegId) (v : Word) : State :=
  let w := s.fld F.WIN_SEL_WIN
  if s.fld F.WIN_STATUS_STATE w = 0 then s.plainWrite r v w else s.setBit F.PLT_EVT_WIN_REJECT

/-! ### The checks of a request (R381) -/

/-- The bit of a request's origin in a peer mask: bit 12 for the host. -/
def originBit (f : Frame) : Nat := if f.hostSrc then 12 else f.src.toNat

/-- The status of the checks of R381 for a request that needs `right` and names `n` bytes at its OFFSET; 0 where it passes. -/
def State.windowStatus (s : State) (f : Frame) (right n : Nat) : Nat :=
  let w := f.win.toNat
  if s.fld F.WIN_STATUS_STATE w ≠ 1 ∨ s.fld F.WIN_STATUS_GEN w ≠ f.gen.toNat then 0x06
  else if !(originBit f == 12 && f.hostSrc || decide (f.src.toNat ≤ 11) && !f.hostSrc) ||
      !(s.fld F.WIN_PEERS_PEERS w).testBit (originBit f) || !(s.fld F.WIN_PEERS_RIGHTS w).testBit right then 0x07
  else if s.winSize w < f.offset.toNat + n then 0x05
  else 0

/-- Counts a refusal of R381. -/
def State.countRefusal (s : State) (f : Frame) (status : Nat) : State :=
  let w := f.win.toNat
  if status = 0 then s
  else if status = 0x06 then (s.addSat F.WIN_CLOSED_CNT_COUNT 1 w).setBit F.PLT_EVT_WIN_CLOSED
  else (s.addSat F.WIN_DENIED_CNT_COUNT 1 w).setBit F.PLT_EVT_WIN_DENIED

/-- The address an OFFSET of a window names. -/
def State.winAddr (s : State) (f : Frame) (ofs : Nat) : Nat := s.winBase f.win.toNat + ofs

/-- Whether the memory serves an access of a request: in HyperRAM that answers, or in ACTIVE bands of one store (R66, R446). -/
def State.servedNet (s : State) (a n : Nat) : Bool := s.inHyper a n || s.servedBytes a n

/-- Reads `n` bytes at any byte address, with the poison of the words they lie in. -/
def State.netRead (s : State) (who : Requester) (a n : Nat) : (List Byte × Bool) × State :=
  let ((l, p), s) := (s.turnSpan who a n).getBytes (portAt a) (a / 4 * 4) (n + a % 4)
  ((l.drop (a % 4), p), s)

/-- Writes bytes at any byte address. (DEDUCED, log entry 113.) -/
def State.netWrite (s : State) (who : Requester) (a : Nat) (poison : Bool) (data : List Byte) : State :=
  (s.turnSpan who a data.length).putBytes (portAt a) a poison data

/-- Answers a request that has a response, with its status, data and poison (R371). -/
def State.answer (s : State) (f : Frame) (status : Nat) (data : List Byte) (poison : Bool) : State :=
  if answered f then s.sendFrame { s.reply f status with data := data, poison := poison } else s

/-- A write of a request's DATA at its OFFSET: its status and effect (R381). -/
def State.applyWrite (s : State) (f : Frame) : Nat × State :=
  let n := f.data.length
  match s.windowStatus f 0 n with
  | 0 =>
    let a := s.winAddr f f.offset.toNat
    if s.servedNet a n then (0, s.netWrite (.sys 2 0) a f.poison f.data) else (0x05, s)
  | st => (st, s.countRefusal f st)

/-- Takes a delivered request of a port where the store its window lies in takes accesses now (R76, R88). -/
def State.takeRequest (s : State) (p : Nat) (types : Nat → Bool) : Option (Frame × State) :=
  match s.takeHead p types with
  | some (f, t) => if t.opens (t.winAddr f f.offset.toNat) then some (f, t) else none
  | none => none

/-- WRITE (R381). -/
def execWrite (p : Fin 4) (s : State) : Host.Outcome State Fault Refusal :=
  done (match s.takeRequest p (· == 1) with
    | none => s
    | some (f, s) =>
      let (st, s) := s.applyWrite f
      s.answer f st [] false)

/-- READ (R381). (DESIGN CHOICE, log entry 111.) -/
def execRead (p : Fin 4) (s : State) : Host.Outcome State Fault Refusal :=
  done (match s.takeRequest p (· == 3) with
    | none => s
    | some (f, s) =>
      let n := f.aux.toNat
      let st := s.windowStatus f 1 n
      let a := s.winAddr f f.offset.toNat
      if st ≠ 0 then (s.countRefusal f st).answer f st [] false
      else if n < 4 ∨ 8192 < n ∨ n % 4 ≠ 0 ∨ !s.servedNet a n then s.answer f 0x05 [] false
      else
        let ((l, poison), s) := s.netRead (.sys 2 0) a n
        s.answer f 0 l poison)

/-- The memory-side operation of an ATOMIC request: op in AUX [1:0], cond in AUX [4:2], its operands in DATA (R371); none where
the encoding names no operation. (DESIGN CHOICE, log entry 110.) -/
def atomicOp (f : Frame) : Option MsOp :=
  let word (i : Nat) : Word := BitVec.ofNat 32 (leField f.data (4 * i) 4)
  let cond := (f.aux.toNat / 4) % 8
  if f.data.length ≠ 12 then none
  else match f.aux.toNat % 4 with
    | 0 => if cond ≤ 5 then some (.compare cond (word 0) 0) else none
    | 1 => if cond ≤ 5 then some (.compare cond (word 0) ((word 2).setWidth 16)) else none
    | 2 => some (.add (word 0))
    | _ => some (.swap (word 0) (word 1))

/-- ATOMIC: one operation of R77 on one word; not in HyperRAM or the colour-volume store (R381). -/
def execAtomic (p : Fin 4) (s : State) : Host.Outcome State Fault Refusal :=
  done (match s.takeRequest p (· == 4) with
    | none => s
    | some (f, s) =>
      let st := s.windowStatus f 2 4
      let a := s.winAddr f f.offset.toNat
      if st ≠ 0 then (s.countRefusal f st).answer f st [] false
      else match atomicOp f with
        | none => s.answer f 0x05 [] false
        | some op =>
          if !s.msOk a then s.answer f 0x05 [] false
          else
            let (r, s) := (s.turnFor (.sys 2 0) a).msPerform (portAt a) a op
            s.answer f 0 (bytesOfWords [r.old, if r.flag then 1 else 0]) r.poison)

/-! ### SPLICE (R244, R383) -/

/-- SPLICE: the drain word is compared with d; then the data and the fill word are written, or the fill word is written poisoned
and the overrun counted. (DESIGN CHOICE, log entry 112.) -/
def execSplice (p : Fin 4) (s : State) : Host.Outcome State Fault Refusal :=
  done (match s.takeRequest p (· == 2) with
    | none => s
    | some (f, s) =>
      let n := f.aux.toNat
      let token := f.data.drop n
      let ofs := leField token 0 5
      let v : Word := BitVec.ofNat 32 (leField token 8 4)
      let d : Word := BitVec.ofNat 32 (leField token 12 4)
      let st := s.windowStatus f 0 n
      let st := if st = 0 ∧ s.winSize f.win.toNat < ofs + 8 then 0x05 else st
      let a := s.winAddr f f.offset.toNat
      let fill := s.winAddr f ofs
      if st ≠ 0 then s.countRefusal f st
      else if f.data.length ≠ n + 16 ∨ !s.servedNet a n ∨ !s.msOk fill ∨ !s.msOk (fill + 4) then s
      else
        let (r, s) := (s.turnFor (.sys 2 0) (fill + 4)).msPerform (portAt fill) (fill + 4) (.compare 4 d 0)
        if r.flag then ((s.netWrite (.sys 2 0) a f.poison (f.data.take n)).turnFor (.sys 2 0) fill).putWord fill v f.poison
        else ((s.turnFor (.sys 2 0) fill).putWord fill v true).addSat F.WIN_OVERRUN_CNT_COUNT 1 f.win.toNat)

/-! ### MCAST receivers (R388, R389) -/

/-- The key of a receiver state: SRC, with the host apart, and CHAN. -/
def mcKey (f : Frame) : Nat × Nat := (f.src.toNat + (if f.hostSrc then 16 else 0), f.chan.toNat % 32)

/-- The expected OFFSET of a frame's pair. -/
def State.mcExpect (s : State) (f : Frame) : Option Nat :=
  (s.net.mc.find? (fun e => e.src == (mcKey f).1 && e.chan == (mcKey f).2)).map (fun e => e.expect)

/-- Sets the expected OFFSET of a frame's pair: a new state replaces the oldest of 16 where none is free. -/
def State.mcSet (s : State) (f : Frame) (x : Nat) : State :=
  let (a, b) := mcKey f
  let l := s.net.mc
  let l :=
    if l.any (fun e => e.src == a && e.chan == b) then l.map (fun e => if e.src = a ∧ e.chan = b then { e with expect := x } else e)
    else (if l.length < 16 then l else l.drop 1) ++ [{ src := a, chan := b, expect := x }]
  { s with net := { s.net with mc := l } }

/-- Answers an MCAST with the expected OFFSET. (DESIGN CHOICE, log entry 106.) -/
def State.mcAnswer (s : State) (f : Frame) (status x : Nat) : State :=
  s.sendFrame { s.reply f status with offset := BitVec.ofNat 40 x }

/-- MCAST at a receiver (R389). (DEDUCED, log entry 114.) -/
def execMcast (p : Fin 4) (s : State) : Host.Outcome State Fault Refusal :=
  done (match s.takeRequest p (· == 5) with
    | none => s
    | some (f, s) =>
      let ofs := f.offset.toNat
      let s := if f.first then s.mcSet f ofs else s
      match s.mcExpect f with
      | none => s.addSat F.PLT_DISCARD_COUNT
      | some x =>
        if ofs = x then
          let (st, s) := s.applyWrite f
          if st = 0 then
            let x := (x + f.data.length) % 2 ^ 40
            (s.mcSet f x).mcAnswer f 0 x
          else s.mcAnswer f st x
        else if ofs < x then s.mcAnswer f 0 x
        else (s.addSat F.PLT_DISCARD_COUNT).mcAnswer f 0 x)

end Sys2Proof.Machine
end

