-- ==== Sys2Proof/Machine/Dma.lean ====
section
/-! DEFINITION. The DMA channels: writes, reads, multicast and splices (R385 to R387, R390, R243). -/

namespace Sys2Proof.Machine

/-- A DMA channel beside its registers. -/
def State.dma (s : State) (c : Nat) : Dma := s.net.dma.look c {}

/-- Replaces a channel. -/
def State.setDma (s : State) (c : Nat) (k : Dma) : State := { s with net := { s.net with dma := s.net.dma.put c k } }

/-- DMA_LOCAL. (DESIGN CHOICE, log entry 119.) -/
def State.dmaLocal (s : State) (c : Nat) : Nat := s.fld F.DMA_LOCAL_LO_ADDR c * 4 + s.fld F.DMA_LOCAL_HI_ADDR c * 2 ^ 32
/-- DMA_ROFS. -/
def State.dmaRofs (s : State) (c : Nat) : Nat := s.fld F.DMA_ROFS_LO_OFS c * 4 + s.fld F.DMA_ROFS_HI_OFS c * 2 ^ 32
/-- DMA_LEN. (DESIGN CHOICE, log entry 119.) -/
def State.dmaLen (s : State) (c : Nat) : Nat := s.fld F.DMA_LEN_BYTES c
/-- DMA_CTRL.MODE. -/
def State.dmaMode (s : State) (c : Nat) : Nat := s.fld F.DMA_CTRL_MODE c
/-- Whether a channel is ACTIVE. -/
def State.dmaActive (s : State) (c : Nat) : Bool := s.fld F.DMA_STATUS_STATE c == 1

/-! ### Ends (R386, R481) -/

/-- The fault a channel raises as it stops: of class 9 (R481); the chip for statuses of the far side, the address for a local
one. -/
def State.dmaFault (s : State) (c code chip addr : Nat) : FaultRec :=
  let f : FaultRec := { code := code, cls := 9, unit := c }
  match code with
  | 0x05 => { f with d0 := BitVec.ofNat 32 addr, d1 := BitVec.ofNat 32 (addr / 2 ^ 32) }
  | 0x06 => { f with d0 := BitVec.ofNat 32 chip, d1 := BitVec.ofNat 32 (s.fld F.DMA_TARGET_WIN c), d2 := BitVec.ofNat 32 (s.fld F.DMA_TARGET_GEN c) }
  | 0x07 => { f with d0 := BitVec.ofNat 32 chip, d1 := BitVec.ofNat 32 (s.fld F.DMA_TARGET_WIN c) }
  | 0x08 => { f with d0 := BitVec.ofNat 32 chip }
  | _ => f

/-- A channel ends: its state code, its CODE, GO and its event bit. -/
def State.dmaEnd (s : State) (c st code : Nat) : State :=
  let s := (s.setFld F.DMA_STATUS_STATE st c).setFld F.DMA_STATUS_CODE code c
  ((s.setFld F.DMA_CTRL_GO 0 c).setBit F.PLT_DMA_EVT_END c).setDma c {}

/-- A channel ends as STOPPED; a CODE other than 0x00 is raised. -/
def State.dmaStopped (s : State) (c code chip addr : Nat) : State :=
  let s := if code = 0 then s else s.raise (s.dmaFault c code chip addr)
  s.dmaEnd c 3 code

/-- Begins to stop a channel with the code of its first failure (R386). -/
def State.dmaStop (s : State) (c code : Nat) : State :=
  let k := s.dma c
  if k.stopping.isSome then s else s.setDma c { k with stopping := some code }

/-! ### Frames of a channel -/

/-- A request of a channel to its target. -/
def State.dmaFrame (s : State) (c mtype ofs : Nat) : Frame :=
  { blankFrame mtype (s.fld F.DMA_TARGET_CHIP c) s.chip with
    hostDst := s.bit F.DMA_TARGET_HOST c, win := BitVec.ofNat 8 (s.fld F.DMA_TARGET_WIN c), gen := BitVec.ofNat 16 (s.fld F.DMA_TARGET_GEN c)
    chan := BitVec.ofNat 8 c, offset := BitVec.ofNat 40 (s.dmaRofs c + ofs) }

/-- The end of the contiguous bytes from the start of the range that are complete (R386). -/
def contiguous (done : Nat) : Nat → List (Nat × Nat) → Nat
  | 0, _ => done
  | n + 1, l => match l.find? (fun r => r.1 == done) with
    | some r => contiguous (done + r.2) n l
    | none => done

/-- Ends a channel of mode 0 or 1 where it has nothing more to do (R386). -/
def State.dmaSettle (s : State) (c : Nat) : State :=
  let k := s.dma c
  match k.stopping with
  | some code =>
    if k.txns = [] then s.dmaStopped c code (s.fld F.DMA_TARGET_CHIP c) (s.dmaLocal c) else s
  | none => if s.fld F.DMA_DONE_BYTES c = s.dmaLen c then s.dmaEnd c 2 0 else s

/-- A transaction of a channel is over: complete, or with a failure's code. -/
def State.dmaTxnOver (s : State) (c : Nat) (t : Txn) (code : Nat) : State :=
  let k := s.dma c
  let k := { k with txns := k.txns.filter (fun u => u.tag != t.tag) }
  if code = 0 then
    let l := k.complete ++ [(t.offset, t.length)]
    ((s.setDma c { k with complete := l }).wr .DMA_DONE (BitVec.ofNat 32 (contiguous 0 l.length l)) c).dmaSettle c
  else ((s.setDma c k).dmaStop c code).dmaSettle c

/-- Reads local bytes for a channel, where they are served. (DEDUCED, log entry 116.) -/
def State.dmaRead (s : State) (c a n : Nat) : Option ((List Byte × Bool) × State) :=
  if s.servedNet a n then some (s.netRead (.sys 1 c) a n) else none

/-- A channel of mode 0 or 1 sends its next transaction (R386). (DEDUCED, log entry 116.) -/
def State.dmaIssue (s : State) (c : Nat) : State :=
  let k := s.dma c
  let n := min 8192 (s.dmaLen c - k.next)
  if k.stopping.isSome ∨ 8 ≤ k.txns.length ∨ n = 0 then s
  else
    let t : Txn := { tag := k.tagNext, offset := k.next, length := n, sentAt := s.time }
    let go (s : State) (f : Frame) : State :=
      (s.setDma c { k with next := k.next + n, txns := k.txns ++ [t], tagNext := k.tagNext + 1 }).sendFrame { f with tag := t.tag }
    if s.dmaMode c = 1 then go s { s.dmaFrame c 3 k.next with aux := BitVec.ofNat 32 n }
    else match s.dmaRead c (s.dmaLocal c + k.next) n with
      | none => (s.dmaStop c 0x05).dmaSettle c
      | some ((l, p), s) => go s { s.dmaFrame c 1 k.next with ackReq := true, data := l, poison := p }

/-! ### Multicast (R390) -/

/-- How many transactions a member has outstanding. -/
def Member.outstanding (m : Member) : Nat := (m.sent - m.acked + 8191) / 8192

/-- Replaces a member in a channel. -/
def Dma.putMember (k : Dma) (m : Member) : Dma := { k with members := k.members.map (fun u => if u.chip = m.chip then m else u) }

/-- The registers a multicast channel shows: the attached members, the failed ones, and the lowest offset acknowledged by an
unfailed member (R393). -/
def State.mcShow (s : State) (c : Nat) : State :=
  let l := (s.dma c).members
  let mask (p : Member → Bool) : Nat := (l.filter p).foldl (fun n m => n + 2 ^ m.chip) 0
  let live := l.filter (fun m => m.failed.isNone)
  let s := (s.setFld F.DMA_MC_ATT_ATT (mask (fun m => m.attached)) c).setFld F.DMA_MC_FAIL_FAIL (mask (fun m => m.failed.isSome)) c
  match live with
  | [] => s
  | m :: r => s.wr .DMA_DONE (BitVec.ofNat 32 (r.foldl (fun n u => min n u.acked) m.acked)) c

/-- Ends a multicast channel that is done, and begins the catch-up of the next detached member (R390). -/
def State.mcSettle (s : State) (c : Nat) : State :=
  let s := s.mcShow c
  let k := s.dma c
  let len := s.dmaLen c
  let past (m : Member) : Bool := m.failed.isSome || decide (len ≤ m.acked)
  let caught (m : Member) : Bool := k.catchUp == some m.chip
  match k.stopping with
  | some code =>
    if k.members.all (fun m => m.failed.isSome || !(m.attached || caught m) || decide (m.sent ≤ m.acked)) then s.dmaStopped c code 0 0 else s
  | none =>
    if k.members.all past then
      match k.members.find? (fun m => m.failed.isSome) with
      | some m => s.dmaStopped c (m.failed.getD 0) m.chip (s.dmaLocal c)
      | none => s.dmaEnd c 2 0
    else if k.members.any (fun m => (m.attached || caught m) && !past m) then s
    else match k.members.find? (fun m => !past m) with
      | some m => s.setDma c { k.putMember { m with sent := m.acked, retries := 0, times := [] } with catchUp := some m.chip }
      | none => s

/-- Sends one multicast transaction at position `pos`: to the group, or to one member alone. -/
def State.mcSend (s : State) (c pos : Nat) (alone : Option Nat) (first repair : Bool) : Option State :=
  let n := min 8192 (s.dmaLen c - pos)
  match s.dmaRead c (s.dmaLocal c + pos) n with
  | none => none
  | some ((l, p), s) =>
    let f := s.dmaFrame c 5 pos
    let f := { f with hostDst := false, group := BitVec.ofNat 8 (s.fld F.DMA_MC_GROUP c), first := first, repair := repair, data := l, poison := p }
    some (match alone with
      | some d => s.sendFrame { f with dst := BitVec.ofNat 4 d }
      | none => s.route none (sealed { f with dst := 15 }))

/-- MCAST_DETACH of the attached members with 32 transactions outstanding (R390). -/
def State.mcDetach (s : State) (c : Nat) : State :=
  (s.dma c).members.foldl (fun s m =>
    if m.attached && decide (32 ≤ m.outstanding) then
      let s := s.setDma c ((s.dma c).putMember { m with attached := false })
      (s.setBit F.PLT_EVT_MCAST_DETACH).raise { code := 0x19, cls := 9, unit := c, d0 := BitVec.ofNat 32 m.chip }
    else s) s

/-- Notes that a member was sent data up to `pos`. -/
def Member.sentTo (m : Member) (now pos : Nat) : Member :=
  { m with sent := max m.sent pos, times := m.times ++ [now] }

/-- A member has acknowledged up to `pos`. -/
def Member.ackedTo (m : Member) (pos : Nat) : Member :=
  let m := { m with acked := pos, sent := max m.sent pos, retries := 0 }
  { m with times := m.times.drop (m.times.length - m.outstanding) }

/-- Whether a member's oldest outstanding transaction is older than PLT_MC.RTO, of which 0 acts as 1 (R390, R393). -/
def State.repairDue (s : State) (m : Member) : Bool :=
  match m.times with
  | [] => false
  | t :: _ => decide (1000 * max 1 (s.fld F.PLT_MC_RTO) < s.elapsed t)

/-- A channel of mode 2 sends its next transaction: to the group, or in a catch-up (R390). (DESIGN CHOICE, log entry 117.) -/
def State.mcIssue (s : State) (c : Nat) : State :=
  let k := s.dma c
  let len := s.dmaLen c
  if k.stopping.isSome then s
  else match k.catchUp with
    | some d =>
      match k.members.find? (fun m => m.chip == d) with
      | none => s
      | some m =>
        if len ≤ m.sent ∨ 32 ≤ m.outstanding then s
        else match s.mcSend c m.sent (some d) false false with
          | none => (s.dmaStop c 0x05).mcSettle c
          | some s => s.setDma c ((s.dma c).putMember (m.sentTo s.time (min len (m.sent + 8192))))
    | none =>
      if len ≤ k.next then s
      else
        let s := s.mcDetach c
        match s.mcSend c k.next none (k.next == 0) false with
        | none => (s.dmaStop c 0x05).mcSettle c
        | some s =>
          let pos := min len (k.next + 8192)
          let k := s.dma c
          (s.setDma c { k with next := pos, members := k.members.map (fun m => if m.attached then m.sentTo s.time pos else m) }).mcSettle c

/-- A member fails with a status and is detached (R390). -/
def State.mcFail (s : State) (c : Nat) (m : Member) (code : Nat) : State :=
  (s.setDma c ((s.dma c).putMember { m with failed := some code, attached := false })).mcSettle c

/-! ### Commands -/

/-- GO of a channel (R385, R387, R390). (DESIGN CHOICE, log entry 115.) -/
def State.dmaStart (s : State) (c : Nat) : State :=
  let s := ((s.setFld F.DMA_STATUS_STATE 1 c).setFld F.DMA_STATUS_CODE 0 c).setFld F.DMA_CTRL_GO 1 c
  let s := (((s.wr .DMA_DONE 0 c).wr .DMA_MC_ATT 0 c).wr .DMA_MC_FAIL 0 c).setDma c {}
  let n := s.dmaLen c
  let mode := s.dmaMode c
  if n % 4 ≠ 0 ∨ n < 4 ∨ 2 ^ 31 < n ∨ !s.inMemory (s.dmaLocal c) n then
    s.dmaStopped c 0x05 (s.fld F.DMA_TARGET_CHIP c) (s.dmaLocal c)
  else if mode = 3 then
    let b := s.fld F.DMA_SPL_SHAPE_BYTES c
    if b % 4 ≠ 0 ∨ 8176 < s.fld F.DMA_SPL_SRC_PLANES c * b then s.dmaStopped c 0x04 0 0 else s
  else if mode = 2 then
    let chips := (List.range 12).filter (fun d => (s.fld F.DMA_MC_MEMBERS c).testBit d)
    (s.setDma c { members := chips.map (fun d => { chip := d }) }).mcSettle c
  else s

/-- ABORT (R386). (DEDUCED, log entry 118.) -/
def State.dmaAbort (s : State) (c : Nat) : State :=
  if !s.dmaActive c then s
  else
    let s := s.dmaStop c 0
    match s.dmaMode c with
    | 2 => s.mcSettle c
    | 3 => s.dmaStopped c 0 0 0
    | _ => s.dmaSettle c

/-- A write of DMA_CTRL: MODE and GO are ignored while the channel is ACTIVE (R393). -/
def State.writeDmaCtrl (s : State) (c : Nat) (v : Word) : State :=
  if s.dmaActive c then (if v.getLsbD 30 then s.dmaAbort c else s)
  else
    let s := s.setFld F.DMA_CTRL_MODE v.toNat c
    if v.getLsbD 31 then s.dmaStart c else s

/-- DMA_GO (R385). -/
def execDmaGo (ch : Fin 32) (value : Word) (s : State) : Host.Outcome State Fault Refusal := done (s.writeDmaCtrl ch (value ||| 0x80000000))

/-- DMA_ABORT: a write of DMA_CTRL with ABORT (R386). -/
def execDmaAbort (ch : Fin 32) (s : State) : Host.Outcome State Fault Refusal := done (s.dmaAbort ch)

/-- DMA_TXN_ISSUE (R386, R390), when the store of the local range takes accesses (R76, R88). -/
def execDmaTxnIssue (ch : Fin 32) (s : State) : Host.Outcome State Fault Refusal :=
  done (if !s.dmaActive ch || !s.opens (s.dmaLocal ch) then s
    else match s.dmaMode ch with
      | 2 => s.mcIssue ch
      | 3 => s
      | _ => s.dmaIssue ch)

/-- DMA_TXN_TIMEOUT: no response within PLT_TXN_TMO, of which 0 acts as 1 (R386, R393). (DESIGN CHOICE, log entry 228.) -/
def execDmaTxnTimeout (ch : Fin 32) (tag : BitVec 16) (s : State) : Host.Outcome State Fault Refusal :=
  done (if !s.dmaActive ch then s
    else match (s.dma ch).txns.find? (fun t => t.tag == tag) with
      | some t => if 1000 * max 1 (s.fld F.PLT_TXN_TMO_US) ≤ s.elapsed t.sentAt then s.dmaTxnOver ch t 0x08 else s
      | none => s)

/-- The transaction a response answers. -/
def State.dmaTxnOf (s : State) (f : Frame) (mode : Nat) : Option (Nat × Txn) :=
  let c := f.chan.toNat % 32
  if s.dmaActive c && s.dmaMode c == mode then ((s.dma c).txns.find? (fun t => t.tag == f.tag)).map (fun t => (c, t)) else none

/-- WRITE_RESPONSE (R386). -/
def execWriteResponse (p : Fin 4) (s : State) : Host.Outcome State Fault Refusal :=
  done (match s.takeHead p (· == 0x81) with
    | none => s
    | some (f, s) => match s.dmaTxnOf f 0 with
      | some (c, t) => s.dmaTxnOver c t f.status.toNat
      | none => s)

/-- READ_RESPONSE: its data are written to the local range (R385, R386), when the store takes them (R76, R88). -/
def execReadResponse (p : Fin 4) (s : State) : Host.Outcome State Fault Refusal :=
  done (match s.takeHead p (· == 0x83) with
    | none => s
    | some (f, u) => match u.dmaTxnOf f 1 with
      | none => u
      | some (c, t) =>
        let a := u.dmaLocal c + t.offset
        if f.status ≠ 0 then u.dmaTxnOver c t f.status.toNat
        else if f.data.length ≠ t.length ∨ !u.servedNet a t.length then u.dmaTxnOver c t 0x05
        else if !u.opens a then s
        else (u.netWrite (.sys 1 c) a f.poison f.data).dmaTxnOver c t 0)

/-- ATOMIC_RESPONSE: the old word and the flag come to the origin (R371). -/
def execAtomicResponse (p : Fin 4) (s : State) : Host.Outcome State Fault Refusal :=
  done (match s.takeHead p (· == 0x84) with
    | none => s
    | some (f, s) =>
      let l := wordsOfBytes f.data
      { s with portWords := l.take 1, portFlag := l.getD 1 0 != 0, portPoison := f.poison })

/-- MCAST_ACK: a member's acknowledged offset advances, or the member fails (R390). -/
def execMcastAck (p : Fin 4) (s : State) : Host.Outcome State Fault Refusal :=
  done (match s.takeHead p (· == 0x85) with
    | none => s
    | some (f, s) =>
      let c := f.chan.toNat % 32
      if !s.dmaActive c || s.dmaMode c != 2 then s
      else match (s.dma c).members.find? (fun m => m.chip == f.src.toNat && m.failed.isNone) with
        | none => s
        | some m =>
          if f.status ≠ 0 then s.mcFail c m f.status.toNat
          else
            let pos := f.offset.toNat - s.dmaRofs c
            if pos ≤ m.acked ∨ s.dmaLen c < pos then s
            else (s.setDma c ((s.dma c).putMember (m.ackedTo pos))).mcSettle c)

/-- MCAST_REPAIR_TIMEOUT: a member's outstanding transactions are sent again to it alone, or after RETRIES such re-sends it fails
(R390). (DESIGN CHOICE, log entry 228.) -/
def execMcastRepairTimeout (ch : Fin 32) (member : Fin 12) (s : State) : Host.Outcome State Fault Refusal :=
  done (if !s.dmaActive ch || s.dmaMode ch != 2 || !s.opens (s.dmaLocal ch) then s
    else
      let k := s.dma ch
      match k.members.find? (fun m => m.chip == member.val && m.failed.isNone) with
      | none => s
      | some m =>
        let caught := k.catchUp == some m.chip
        if !(m.attached || caught) || decide (m.sent ≤ m.acked) || !s.repairDue m then s
        else if max 1 (s.fld F.PLT_MC_RETRIES) ≤ m.retries then s.mcFail ch m 0x08
        else
          let s := s.setDma ch (k.putMember { m with retries := m.retries + 1, times := m.times.map (fun _ => s.time) })
          match (List.range m.outstanding).foldl (fun (acc : Option State) i =>
            acc.bind (fun s => s.mcSend ch (m.acked + 8192 * i) (some m.chip) (caught && i == 0) true)) (some s) with
          | some s => s
          | none => (s.dmaStop ch 0x05).mcSettle ch)

/-! ### Splices (R243, R387) -/

/-- Whether the sink that feeds the stream of a core is encrypted (R301). -/
def State.spliceEncrypted (s : State) (core : Nat) : Bool :=
  let x := s.streamOf core
  decide (x < 2) && s.bit F.SNK_STATUS_ENCRYPTED (s.fld F.INP_CTRL_SRC x)

/-- SPLICE_LINE_SEND: a slot's halo columns with their line token (R243, R387). -/
def execSpliceLineSend (ch : Fin 32) (s : State) : Host.Outcome State Fault Refusal :=
  let c := ch.val
  done (if !s.dmaActive c || s.dmaMode c != 3 || !s.opens (s.dmaLocal c) then s
    else
      let core := s.fld F.DMA_SPL_SRC_CORE c
      let g := s.ring core (s.fld F.DMA_SPL_SRC_RING c)
      let m := (s.dma c).line
      let slot := m % g.slots
      let a := g.fill slot
      if !s.slotOk g slot a || !s.storeOk (a + 4) 1 then s.dmaStopped c 0x05 0 a
      else
        let ((w, p), s1) := (s.turnFor (.sys 1 c) a).getWord (portAt a) a
        if !p && !condHolds 4 w (BitVec.ofNat 32 (m / g.slots + 1)) then s1
        else
          let s := s1
          let (planes, n) := (s.fld F.DMA_SPL_SRC_PLANES c, s.fld F.DMA_SPL_SHAPE_BYTES c)
          let from_ (i : Nat) : Nat :=
            s.dmaLocal c + slot * 256 * s.fld F.DMA_SPL_STR_SSTR c + i * 256 * s.fld F.DMA_SPL_STR_PSTR c
          let hidden := s.spliceEncrypted core
          let bad := (List.range planes).find? (fun i => !s.servedNet (from_ i) n)
          match bad with
          | some i => s.dmaStopped c 0x05 0 (from_ i)
          | none =>
            let ((data, q), s) := (List.range planes).foldl (fun (acc : (List Byte × Bool) × State) i =>
              let ((l, r), s) := acc.2.netRead (.sys 1 c) (from_ i) n
              ((acc.1.1 ++ l, acc.1.2 || r), s)) (([], p), s)
            let (_, s) := (s.turnFor (.sys 1 c) (a + 4)).msPerform (portAt a) (a + 4) (.add 1)
            let nh := s.fld F.DMA_SPL_SHAPE_NH c + 1
            let dh := max 1 (s.fld F.DMA_SPL_SHAPE_DH c)
            let body := if hidden then [] else data
            let token := leBytes 5 (s.fld F.DMA_SPL_FILL_OFS c * 8 + 8 * (m % nh)) ++ [0, 0, 0] ++ leBytes 4 (m / nh + 1) ++ leBytes 4 (m / nh * dh)
            let ofs := m % nh * 256 * ((planes * n + 255) / 256)
            let s := s.setDma c { s.dma c with line := m + 1 }
            s.sendFrame { s.dmaFrame c 2 ofs with aux := BitVec.ofNat 32 body.length, data := body ++ token, poison := q || hidden })

end Sys2Proof.Machine
end

