-- ==== Sys2Proof/Machine/Irq.lean ====
section
/-! DEFINITION. Keepers, interrupt sources, claims and completions, the host event channel, doorbells and the sideband mailbox
(chapter 15). -/

namespace Sys2Proof.Machine

/-! ### Keepers (R424, R426, R429) -/

/-- Restarts the watchdog run of a keeper. (DEDUCED, log entry 122.) -/
def State.restartWdog (s : State) (k : Nat) : State := s.updKeeper k (fun v => { v with wdogTicks := s.fld F.TICK_COUNT_COUNT })

/-- A START request (R424). -/
def State.startKeeper (s : State) (k : Nat) : State :=
  let v := s.keeper k
  if v.state = 0 then (s.setKeeper k { v with state := 1, eng := {} }).restartWdog k
  else if v.state = 2 then
    (s.setKeeper k { v with state := 1, eng := { v.eng with stopped := false, withdraw := false } }).restartWdog k
  else s

/-- A HALT request (R424): a held read of IRQ_WAIT is left unperformed and repeated on resume. (DEDUCED, log entry 120.) -/
def State.haltKeeper (s : State) (k : Nat) : State :=
  let v := s.keeper k
  if v.state ≠ 1 then s
  else match v.eng.wait with
    | .irq _ _ => s.setKeeper k { v with state := 2, eng := { v.eng with wait := .none, since := none } }
    | _ => s.setKeeper k { v with state := 2, eng := v.eng.halt }

/-- A RESET request (R424). -/
def State.resetKeeper (s : State) (k : Nat) : State :=
  let s := s.dropWatches (fun e => e == .keeper (Fin.ofNat 4 k))
  s.updKeeper k (fun v => { v with state := 0, eng := {} })

/-- A write of KEP_CTRL: the requests of each keeper in the order RESET, HALT, START (R424). -/
def State.writeKepCtrl (s : State) (v : Word) : State :=
  (List.range 4).foldl (fun s k =>
    let s := if v.getLsbD (8 + k) then s.resetKeeper k else s
    let s := if v.getLsbD (4 + k) then s.haltKeeper k else s
    if v.getLsbD k then s.startKeeper k else s) s

/-- KEEPER_START (R424). -/
def execKeeperStart (k : Fin 4) (s : State) : Host.Outcome State Fault Refusal := done (s.startKeeper k)

/-- KEEPER_HALT (R424). -/
def execKeeperHalt (k : Fin 4) (s : State) : Host.Outcome State Fault Refusal := done (s.haltKeeper k)

/-- KEEPER_RESET (R424). -/
def execKeeperReset (k : Fin 4) (s : State) : Host.Outcome State Fault Refusal := done (s.resetKeeper k)

/-- A write of KEP_RING: DOORBELL[FROM] of every keeper in TARGETS (R429). -/
def State.writeKepRing (s : State) (v : Word) : State :=
  let from_ := v.toNat / 16 % 4
  (List.range 4).foldl (fun s k => if v.getLsbD k then s.wr .KEP_PEVT (s.rd .KEP_PEVT k ||| BitVec.ofNat 32 (2 ^ (1 + from_))) k else s) s

/-- DOORBELL (R429). -/
def execDoorbell (value : Word) (s : State) : Host.Outcome State Fault Refusal := done (s.writeKepRing value)

/-- A write of KEP_WDOG: KICK restarts the run, as does enabling the watchdog (R429). -/
def State.writeKepWdog (s : State) (k : Nat) (v : Word) : State :=
  let off := s.fld F.KEP_WDOG_TICKS k = 0
  let s := s.plainWrite .KEP_WDOG v k
  if v.getLsbD 31 ∨ off then s.restartWdog k else s

/-- WATCHDOG_KICK (R429). -/
def execWatchdogKick (k : Fin 4) (value : Word) (s : State) : Host.Outcome State Fault Refusal :=
  done (s.writeKepWdog k (value ||| 0x80000000))

/-- KEEPER_WATCHDOG_EXPIRY: a run of TICKS ticks without a KICK (R429). -/
def execKeeperWatchdogExpiry (k : Fin 4) (s : State) : Host.Outcome State Fault Refusal :=
  let k := k.val
  let n := s.fld F.KEP_WDOG_TICKS k
  let passed := (s.fld F.TICK_COUNT_COUNT + 2 ^ 32 - (s.keeper k).wdogTicks) % 2 ^ 32
  done (if n = 0 ∨ (s.keeper k).state ≠ 1 ∨ passed < n then s
    else
      ((List.range 4).foldl (fun s j => if j ≠ k ∧ (s.keeper j).state = 1 then s.setBit F.KEP_PEVT_WDOG 0 j else s) s).restartWdog k)

/-! ### Levels (R430 to R432) -/

/-- Whether an event register and its enable register share a bit. -/
def State.evt (s : State) (evt ien : RegId) (i : Nat := 0) : Bool := (s.rd evt i &&& s.rd ien i) != 0

/-- The level of shared source `n` (R431). -/
def State.level (s : State) (n : Nat) : Bool :=
  if n < 32 then s.evt .CORE_EVT .CORE_IEN n || s.evt .SLOT_EVT .SLOT_IEN n
  else if 64 ≤ n ∧ n < 96 then (s.rd .IRQ_SOFT_LO).getLsbD (n - 64)
  else if 96 ≤ n ∧ n < 128 then (s.rd .IRQ_SOFT_HI).getLsbD (n - 96)
  else match n with
    | 32 => s.evt .BELAY_EVT .BELAY_IEN
    | 33 => s.irq.frameLatch.look 0 false
    | 34 => s.irq.frameLatch.look 1 false
    | 35 => s.evt .STO_EVT .STO_IEN
    | 36 => s.evt .KNT_EVT .KNT_IEN
    | 37 => s.bit F.IMP_STATUS_DONE
    | 38 => s.evt .SNK_EVT .SNK_IEN 0
    | 39 => s.evt .SNK_EVT .SNK_IEN 1
    | 40 => s.evt .INP_EVT .INP_IEN 0
    | 41 => s.evt .INP_EVT .INP_IEN 1
    | 42 => s.evt .MOT_EVT .MOT_IEN 0
    | 43 => s.evt .MOT_EVT .MOT_IEN 1
    | 44 => s.evt .CMP_EVT .CMP_IEN
    | 45 => s.evt .LUT_EVT .LUT_IEN
    | 46 => s.evt .CV_EVT .CV_IEN
    | 47 => s.evt .TMG_EVT .TMG_IEN 0
    | 48 => s.evt .TMG_EVT .TMG_IEN 1
    | 49 => (s.rd .SRC_EVT 0).toNat &&& s.frc F.SRC_IEN_IEN 0 != 0
    | 50 => (s.rd .SRC_EVT 1).toNat &&& s.frc F.SRC_IEN_IEN 1 != 0
    | 51 => s.evt .GRD_EVT .GRD_IEN
    | 52 => s.evt .PRT_EVT .PRT_IEN 0
    | 53 => s.evt .PRT_EVT .PRT_IEN 1
    | 54 => s.evt .PRT_EVT .PRT_IEN 2
    | 55 => s.evt .PRT_EVT .PRT_IEN 3
    | 56 => s.evt .PLT_EVT .PLT_IEN
    | 57 => s.evt .PLT_DMA_EVT .PLT_DMA_IEN
    | 58 => s.evt .TIME_EVT .TIME_IEN
    | 59 => s.bit F.PMB_STATUS_DONE
    | 60 => !s.log.isEmpty
    | 61 => s.evt .TST_EVT .TST_IEN
    | 62 => s.evt .BOOT_EVT .BOOT_IEN
    | 63 => s.evt .MBX_EVT .MBX_IEN
    | _ => false

/-- The level of private source `i` of keeper `k` (R432). -/
def State.privateLevel (s : State) (k i : Nat) : Bool := decide (i < 7) && (s.rd .KEP_PEVT k).getLsbD i

/-! ### Claim and completion (R433 to R438) -/

/-- Where a source's service is noted: a shared source by its number, private source `i` of keeper `k` at 256 + 32 k + i. -/
def serviceKey (t id : Nat) : Nat := if id < 256 then id else 256 + 32 * t + (id - 256)

/-- Whether a source is in service. -/
def State.inService (s : State) (key : Nat) : Bool := s.irq.inService.has key

/-- The claimable sources of a target with their priorities: private ones first, each by rising ID (R433). -/
def State.claimable (s : State) (t : Nat) : List (Nat × Nat) :=
  let past (p : Nat) : Bool := decide (s.fld F.IRQ_THRESH_THRESH t < p)
  let own := if t < 4 then (List.range 32).filterMap (fun i =>
      let p := s.fld F.IRQ_PCFG_PRIO t i
      if s.privateLevel t i && !s.inService (serviceKey t (256 + i)) && past p then some (256 + i, p) else none)
    else []
  own ++ (List.range 256).filterMap (fun n =>
    let p := s.fld F.IRQ_CFG_PRIO n
    if (s.fld F.IRQ_CFG_TARGETS n).testBit t && past p && s.level n && !s.inService n then some (n, p) else none)

/-- The claimable source with the highest priority, the first of equals (R434). -/
def State.bestClaim (s : State) (t : Nat) : Option (Nat × Nat) :=
  (s.claimable t).foldl (fun best c => match best with
    | some b => if b.2 < c.2 then some c else best
    | none => some c) none

/-- Claims for a target: the source with its priority goes in service (R434). -/
def State.claimSource (s : State) (t : Nat) : Option ((Nat × Nat) × State) :=
  (s.bestClaim t).map (fun c =>
    (c, { s with irq := { s.irq with inService := s.irq.inService.put (serviceKey t c.1) t } }.addWrap F.IRQ_CLAIMS_COUNT 1 t))

/-- A read of IRQ_CLAIM[t] (R434). -/
def State.readClaim (s : State) (t : Nat) : Word × State :=
  if t = 4 ∧ s.bit F.EVT_CTRL_EN then (1023, s)
  else match s.claimSource t with
    | some (c, s) => (BitVec.ofNat 32 c.1, s)
    | none => (1023, s)

/-- IRQ_CLAIM (R434). -/
def execIrqClaim (t : Fin 5) (s : State) : Host.Outcome State Fault Refusal :=
  let (v, s) := s.readClaim t
  done { s with readData := v }

/-- Whether a read of IRQ_WAIT[t] returns at once: a source is claimable, or the host event channel claims for the target
(R434, R435). (DEDUCED, log entry 121.) -/
def State.waitAnswers (s : State) (t : Nat) : Bool := (decide (t = 4) && s.bit F.EVT_CTRL_EN) || (s.bestClaim t).isSome

/-- IRQ_WAIT: the read acts as one of IRQ_CLAIM, or is held (R435). -/
def execIrqWait (t : Fin 5) (s : State) : Host.Outcome State Fault Refusal :=
  let t := t.val
  done (if s.waitAnswers t then
      let (v, s) := s.readClaim t
      { s with readData := v }
    else { s with irq := { s.irq with held := if s.irq.held.any (·.1 == t) then s.irq.held else s.irq.held ++ [(t, s.time)] } })

/-- Whether a management tick has come since the counter stood at `c` (R427, R435). -/
def State.tickSince (s : State) (c : Nat) : Bool := s.time / 1000000 != c / 1000000

/-- The target whose IRQ_WAIT a keeper's held LD reads. -/
def irqTarget (x : Engine) (b : KBits) : Nat := (mmAddr x b - (ctrlBase + 0x90104)) / 0x20

/-- The lowest keeper whose read of IRQ_WAIT[t] is held, with its instruction. -/
def State.heldKeeper (s : State) (t : Nat) : Option (Fin 4 × KBits) :=
  ([0, 1, 2, 3] : List (Fin 4)).findSome? (fun (k : Fin 4) => match (s.keeper k).eng.wait with
    | .irq _ b => if (s.keeper k).state = 1 ∧ irqTarget (s.keeper k).eng b = t then some (k, b) else none
    | _ => none)

/-- IRQ_WAIT_RETURN: a held read returns a source that has become claimable, or 1,023 once a tick has come; a keeper's instruction
completes with it (R435). (DESIGN CHOICE, log entry 190.) -/
def execIrqWaitReturn (t : Fin 5) (s : State) : Host.Outcome State Fault Refusal :=
  let t := t.val
  let answers (c : Nat) : Bool := s.waitAnswers t || s.tickSince c
  done (match s.heldKeeper t with
    | some (k, b) =>
      if !answers ((s.keeper k).eng.since.getD 0) then s
      else
        let (v, s) := s.readClaim t
        ({ s with readData := v }.updEng (.keeper k) (fun x => x.ws (b.f 49 45) v)).retire (.keeper k)
    | none =>
      match s.irq.held.find? (·.1 == t) with
      | some h =>
        if !answers h.2 then s
        else
          let (v, s) := { s with irq := { s.irq with held := s.irq.held.filter (·.1 != t) } }.readClaim t
          { s with readData := v }
      | none => s)

/-- A write of IRQ_COMPLETE[t] (R436, R437). -/
def State.writeComplete (s : State) (t : Nat) (v : Word) : State :=
  let id := v.toNat % 1024
  let key := serviceKey t id
  if id < 288 ∧ (id < 256 ∨ t < 4) ∧ s.inService key ∧ s.irq.inService.look key 5 = t then
    { s with irq := { s.irq with inService := s.irq.inService.del key
                                 events := if t = 4 then s.irq.events.filter (fun e => e.src != id) else s.irq.events } }
  else s.addSat F.IRQ_MISCOUNT_COUNT 1 t

/-- IRQ_COMPLETE (R436, R437). -/
def execIrqComplete (t : Fin 5) (value : Word) (s : State) : Host.Outcome State Fault Refusal := done (s.writeComplete t value)

/-- A read of RPT_SEQ: it clears the stream's frame-report latch (R431). -/
def State.readRptSeq (s : State) (x : Nat) : Word × State :=
  (s.rd .RPT_SEQ x, { s with irq := { s.irq with frameLatch := s.irq.frameLatch.set x false false } })

/-- RPT_SEQ_READ (R431). -/
def execRptSeqRead (x : Fin 2) (s : State) : Host.Outcome State Fault Refusal :=
  let (v, s) := s.readRptSeq x
  done { s with readData := v }

/-! ### Host event channel (R439 to R441) -/

/-- How many sources are in service by the host. -/
def State.outstanding (s : State) : Nat := (s.irq.inService.filter (fun c => c.2 == 4)).length

/-- Sends an event to the host (R439). -/
def State.sendEvent (s : State) (e : HostEvent) (resent : Bool) : State :=
  let data := leBytes 2 e.src ++ [BitVec.ofNat 8 e.prio, if resent then 1 else 0] ++ leBytes 4 e.seq.toNat ++ leBytes 8 e.time
  s.sendFrame { blankFrame 8 0 s.chip with hostDst := true, tag := e.seq.setWidth 16, data := data }

/-- EVENT_SEND: with a credit the channel claims a source and sends it (R439). -/
def execEventSend (s : State) : Host.Outcome State Fault Refusal :=
  done (if !s.bit F.EVT_CTRL_EN ∨ max 1 (s.fld F.EVT_CTRL_CREDITS) ≤ s.outstanding then s
    else match s.claimSource 4 with
      | none => s
      | some (c, s) =>
        let e : HostEvent := { src := c.1, prio := c.2, seq := s.rd .EVT_SEQ, time := s.nt, lastSent := s.time }
        let s := { s with irq := { s.irq with events := s.irq.events ++ [e] } }
        ((s.addWrap F.EVT_SEQ_SEQ).addWrap F.EVT_SENT_COUNT).sendEvent e false)

/-- EVENT_RESEND: an event still in service EVT_RESEND µs after it was last sent, of which values below 100 act as 100, is sent again
(R440, R453). (DESIGN CHOICE, log entry 228.) -/
def execEventResend (src : Fin 256) (s : State) : Host.Outcome State Fault Refusal :=
  done (if !s.bit F.EVT_CTRL_EN then s
    else match s.irq.events.find? (fun e => e.src == src.val) with
      | none => s
      | some e => if s.elapsed e.lastSent < 1000 * max 100 (s.fld F.EVT_RESEND_US) then s else
        let upd (l : List HostEvent) : List HostEvent := l.map (fun x => if x.src = e.src then { x with lastSent := s.time } else x)
        ({ s with irq := { s.irq with events := upd s.irq.events } }.addWrap F.EVT_RESENDS_COUNT).sendEvent e true)

/-- A write of EVT_CTRL: clearing EN ends the service of every source in service by the host (R441). -/
def State.writeEvtCtrl (s : State) (v : Word) : State :=
  let on := s.bit F.EVT_CTRL_EN
  let s := s.plainWrite .EVT_CTRL v
  if on && !s.bit F.EVT_CTRL_EN then
    { s with irq := { s.irq with inService := s.irq.inService.filter (fun c => c.2 != 4), events := [] } }
  else s

/-- EVENT_CHANNEL_DISABLE (R441). -/
def execEventChannelDisable (value : Word) (s : State) : Host.Outcome State Fault Refusal := done (s.writeEvtCtrl (value &&& 0xFFFFFFFE))

end Sys2Proof.Machine
end

