-- ==== Sys2Proof/Machine/Boot.lean ====
section
/-! DEFINITION. The boot sequencer, the sideband mailbox, flash writes and the OTP (R442 to R444, R456 to R468). -/

namespace Sys2Proof.Machine

/-! ### Firmware payloads (R461) -/

/-- An entry of the section table (R461). -/
structure Section where
  dest : Nat
  kind : Nat
  ofs : Nat
  len : Nat
  deriving DecidableEq, Repr

/-- The section table of a payload. -/
def sectionsOf (payload : List Byte) : List Section :=
  (List.range (min 15 (leField payload 0 4))).map (fun i =>
    let o := 32 * (i + 1)
    { dest := leField payload o 5, kind := leField payload (o + 7) 1, ofs := leField payload (o + 8) 4, len := leField payload (o + 12) 4 })

/-- Whether the section table of a payload of `size` bytes keeps the rules of R461. (DESIGN CHOICE, log entry 126.) -/
def sectionsOk (size : Nat) (payload : List Byte) : Bool :=
  let n := leField payload 0 4
  let l := sectionsOf payload
  decide (1 ≤ n ∧ n ≤ 15) && (l.head?.any (fun e => e.kind == 1 && e.dest == 0)) &&
    l.all (fun e => decide (e.len % 8 = 0 ∧ e.ofs + e.len ≤ size) && (
      if e.kind = 5 then inStores (fun st => st == 0 || st == 1) e.dest e.len || e.len == 0
      else decide (1 ≤ e.kind ∧ e.kind ≤ 4 ∧ e.dest % 8 = 0 ∧ e.dest + e.len ≤ 65536)))

/-- How many bytes of a payload have arrived when a section has, and with it the table (R461). -/
def Section.due (e : Section) : Nat := max 512 (e.ofs + e.len)

/-- Puts a section among others by its arrival. -/
def insertSection (e : Section) : List Section → List Section
  | [] => [e]
  | f :: r => if e.due ≤ f.due then e :: f :: r else f :: insertSection e r

/-- The sections that arrive while the payload grows from `lo` to `hi` bytes, in the order they do (R461). (DEDUCED, log entry 245.) -/
def arrivals (payload : List Byte) (lo hi : Nat) : List Section :=
  ((sectionsOf payload).filter (fun e => decide (lo < e.due ∧ e.due ≤ hi))).foldr insertSection []

/-- The 64-bit instructions of a list of bytes. -/
def instrsOf (l : List Byte) : List (BitVec 64) := (List.range (l.length / 8)).map (fun i => BitVec.ofNat 64 (leNat (sub l (8 * i) 8)))

/-- Writes one section (R461): to a keeper's program memory, or to a store. -/
def State.writeSection (s : State) (payload : List Byte) (e : Section) : State :=
  let data := sub payload e.ofs e.len
  if e.kind = 5 then s.putServed (portAt e.dest) e.dest false data
  else
    let words := instrsOf data
    s.updKeeper (e.kind - 1) (fun k =>
      { k with program := (List.range words.length).foldl (fun m i => m.put (e.dest / 8 + i) (words.getD i 0)) k.program })

/-- Verifies and loads a container (R460, R461): its result code, 0 for success; sections are written before the digest has been
compared. -/
def State.loadFirmware (s : State) (h payload : List Byte) : Nat × State :=
  if !s.signedOk false h then (0x0E, s)
  else if !sectionsOk (payloadLen h) payload then (0x04, s)
  else
    let s := (arrivals payload 0 payload.length).foldl (fun s e => s.writeSection payload e) s
    (if payloadOk h payload then 0 else 0x0E, s)

/-- The device has booted from a container: its registers, and K0 starts (R461, R472). -/
def State.booted (s : State) (h : List Byte) (slot : Option Nat) : State :=
  let s := { s with boot := { s.boot with phase := 0, slot := slot, ecdsaSlot := containerKey h, lmsSlot := containerLms h
                                          digest := sub h 0x40 48, measurement := 0, sbBytes := [] } }
  let s := (s.setFld F.BOOT_STATUS_SRC (if slot.isSome then 0 else 1)).setFld F.BOOT_STATUS_SLOT (slot.getD 0)
  ((s.wr .BOOT_GEN (BitVec.ofNat 32 (containerGen h))).setFld F.BOOT_SVN_SVN (containerSvn h)).startKeeper 0

/-! ### Flash slots (R457, R462) -/

/-- The header of a flash slot, and its payload. -/
def State.slotHeader (s : State) (i : Nat) : List Byte := s.bytesAt (flashBase + i * 0x400000) headerLen
/-- The payload of a flash slot. -/
def State.slotPayload (s : State) (i : Nat) : List Byte :=
  s.bytesAt (flashBase + i * 0x400000 + headerLen) (payloadLen (s.slotHeader i))

/-- The slots that pass step 1 of R460, in the order they are tried (R462). -/
def State.candidates (s : State) : List Nat :=
  let l := [0, 1].filter (fun i => headerFieldsOk false (s.slotHeader i))
  let gen (i : Nat) : Nat := containerGen (s.slotHeader i)
  let first (i j : Nat) : Bool :=
    if s.bit F.BOOT_NEXT_VALID then s.fld F.BOOT_NEXT_SLOT == i else decide (gen j ≤ gen i)
  match l with
  | [i, j] => if first i j then [i, j] else [j, i]
  | l => l

/-- Tries the slots in turn (R462): answers the header and number of the slot booted from. -/
def State.trySlots (s : State) : List Nat → Option (List Byte × Nat) × State
  | [] => (none, s)
  | i :: r =>
    let h := s.slotHeader i
    let (code, s) := s.loadFirmware h (s.slotPayload i)
    let s := s.setFld (if i = 0 then F.BOOT_STATUS_A_RESULT else F.BOOT_STATUS_B_RESULT) code
    if code = 0 then (some (h, i), s) else s.trySlots r

/-- Whether sideband boot is allowed and the straps ask for it in the first place, or as a fallback (R456). -/
def State.sidebandBoot (s : State) (fallback : Bool) : Bool :=
  let src := s.fld F.SYS_STRAPS_BOOTSRC
  !s.otpConfig 1 && (if fallback then decide (2 ≤ src) else src == 1)

/-- The flash boot (R462): a slot that fails step 1 is SIG_FAIL. -/
def State.flashBoot (s : State) : Option (List Byte × Nat) × State :=
  let cand := s.candidates
  let s := if cand.contains 0 then s else s.setFld F.BOOT_STATUS_A_RESULT 0x0E
  let s := if cand.contains 1 then s else s.setFld F.BOOT_STATUS_B_RESULT 0x0E
  (s.setFld F.BOOT_NEXT_VALID 0).trySlots cand

/-- Whether the flash slots are being tried: in a flash boot, after the stores have been zeroed (R88, R462). -/
def State.flashPhase (s : State) : Bool := s.boot.phase == 1 && s.bit F.STO_STATUS_INIT_DONE

/-- BOOT_COMPLETE: a slot verifies and loads, and K0 starts (R461, R462). (DESIGN CHOICE, log entry 246.) -/
def execBootComplete (s : State) : Host.Outcome State Fault Refusal :=
  done (if !s.flashPhase then s
    else match s.flashBoot with
      | (some (h, i), t) => t.booted h (some i)
      | (none, _) => s)

/-! ### Sideband mailbox (R442 to R444, R458) -/

/-- Places the sequencer's result in the device-to-host buffer (R458). -/
def State.sidebandResult (s : State) (code : Nat) : State :=
  ((s.wr .MBX_D2H (BitVec.ofNat 32 code)).setFld F.MBX_STATUS_D2H_LEN 4).setFld F.MBX_STATUS_D2H_FULL 1

/-- The bytes of the host-to-device message. -/
def State.h2dBytes (s : State) : List Byte :=
  (bytesOfWords ((List.range 16).map (fun i => s.rd .MBX_H2D i))).take (s.fld F.MBX_STATUS_H2D_LEN)

/-- The boot sequencer takes a message of the container: it writes the sections that have arrived with it, and at the container's end
reports and boots (R458, R461). (DESIGN CHOICE, log entry 125.) -/
def State.sidebandTake (s : State) : State :=
  let old := s.boot.sbBytes
  let l := old ++ s.h2dBytes
  let s := { s with boot := { s.boot with sbBytes := l } }
  let h := l.take headerLen
  let payload := l.drop headerLen
  let n := payloadLen h
  let good := decide (headerLen + 512 ≤ l.length) && s.signedOk false h && sectionsOk n payload
  let s := if good then (arrivals payload (old.length - headerLen) payload.length).foldl (fun s e => s.writeSection payload e) s else s
  if l.length < headerLen ∨ l.length < headerLen + n then s
  else
    let code : Nat := if !s.signedOk false h then 0x0E else if !sectionsOk n payload then 0x04 else if payloadOk h (payload.take n) then 0 else 0x0E
    if code = 0 then (s.booted h none).sidebandResult 0
    else { s with boot := { s.boot with sbBytes := [] } }.sidebandResult code

/-- In a sideband boot the sequencer consumes a message that waits, once the stores are zeroed, and clears H2D_FULL (R88, R458). -/
def State.sidebandPoll (s : State) : State :=
  if s.boot.phase = 2 ∧ s.bit F.MBX_STATUS_H2D_FULL ∧ s.bit F.STO_STATUS_INIT_DONE then (s.setFld F.MBX_STATUS_H2D_FULL 0).sidebandTake
  else s

/-- The host's SEND (R443). -/
def State.mailboxSend (s : State) : State :=
  if s.bit F.MBX_STATUS_H2D_FULL ∨ s.fld F.MBX_STATUS_H2D_LEN = 0 then s
  else ((s.setBit F.MBX_EVT_H2D_ARRIVED).setFld F.MBX_STATUS_H2D_FULL 1).sidebandPoll

/-- NO_SLOT_BOOTED: no slot boots; the sideband where the straps allow it, else the sequencer waits (R462). -/
def execNoSlotBooted (s : State) : Host.Outcome State Fault Refusal :=
  done (if !s.flashPhase then s
    else match s.flashBoot with
      | (some _, _) => s
      | (none, t) => { t with boot := { t.boot with phase := if t.sidebandBoot true then 2 else 3 } }.sidebandPoll)

/-- The host's ACK (R443). -/
def State.mailboxAck (s : State) : State :=
  if s.bit F.MBX_STATUS_D2H_FULL then (s.setFld F.MBX_STATUS_D2H_FULL 0).setBit F.MBX_EVT_D2H_TAKEN else s

/-- MAILBOX_SEND (R443). -/
def execMailboxSend (s : State) : Host.Outcome State Fault Refusal := done s.mailboxSend

/-- MAILBOX_ACK (R443). -/
def execMailboxAck (s : State) : Host.Outcome State Fault Refusal := done s.mailboxAck

/-- Whether the target acknowledges a byte the host writes at a pointer (R444). -/
def State.sidebandAck (s : State) (p : Nat) (b : Byte) : Bool :=
  !s.bit F.MBX_STATUS_H2D_FULL || !(p == 1 || (decide (0x40 ≤ p) && decide (p < 0x80)) || (p == 3 && b.getLsbD 0))

/-- One byte the host writes at a pointer (R443): one that is not acknowledged has no effect (R444). -/
def State.sidebandWrite (s : State) (p : Nat) (b : Byte) : State :=
  if !s.sidebandAck p b then s
  else if p = 1 then s.setFld F.MBX_STATUS_H2D_LEN (min 64 b.toNat)
  else if p = 3 then
    let s := if b.getLsbD 0 then s.mailboxSend else s
    if b.getLsbD 1 then s.mailboxAck else s
  else if 0x40 ≤ p ∧ p < 0x80 then
    let i := (p - 0x40) / 4
    let en : BitVec 4 := BitVec.ofNat 4 (2 ^ (p % 4))
    s.wr .MBX_H2D (mergeBytes (s.rd .MBX_H2D i) (b ++ b ++ b ++ b) en) i
  else s

/-- The byte the host reads at a pointer (R443). -/
def State.sidebandRead (s : State) (p : Nat) : Byte :=
  let flag (b : Bool) (k : Nat) : Nat := if b then 2 ^ k else 0
  if p = 0 then BitVec.ofNat 8 (flag (s.bit F.MBX_STATUS_H2D_FULL) 0 + flag (s.bit F.MBX_STATUS_D2H_FULL) 1 + flag (s.bit F.MBX_STATUS_READY) 2)
  else if p = 1 then BitVec.ofNat 8 (s.fld F.MBX_STATUS_H2D_LEN)
  else if p = 2 then BitVec.ofNat 8 (min 64 (s.fld F.MBX_STATUS_D2H_LEN))
  else if 4 ≤ p ∧ p < 8 then byteOf (s.rd .SYS_ID) (p - 4)
  else if p = 8 then BitVec.ofNat 8 s.chip
  else if 0x80 ≤ p ∧ p < 0xC0 then byteOf (s.rd .MBX_D2H ((p - 0x80) / 4)) (p % 4)
  else 0

/-- The device's 7-bit address on the sideband bus (R442). -/
def State.i2cAddress (s : State) : BitVec 7 := BitVec.ofNat 7 (0x60 + s.chip)

/-- Sets the sideband's pointer. -/
def State.setPointer (s : State) (p : Nat) : State := { s with boot := { s.boot with sbPointer := p % 256 } }

/-- Notes whether the target acknowledged the bytes of a transaction. -/
def State.noteAcks (s : State) (l : List Bool) : State := { s with boot := { s.boot with sbAcks := l } }

/-- Writes bytes at pointer, pointer + 1 and so on; answers whether each was acknowledged (R442, R444). -/
def State.sidebandBytes (s : State) (p : Nat) : List Byte → List Bool × State
  | [] => ([], s)
  | b :: r =>
    let (l, t) := (s.sidebandWrite (p % 256) b).sidebandBytes (p + 1) r
    (s.sidebandAck (p % 256) b :: l, t)

/-- I2C_WRITE to a target address: the pointer, then bytes at pointer, pointer + 1 and so on (R442, R444); another device's address is
not acknowledged. (DESIGN CHOICE, log entry 247.) -/
def execI2cWrite (start : I2cPointer) (data : List Byte) (s : State) : Host.Outcome State Fault Refusal :=
  let p := start.pointer.toNat
  done (if start.address ≠ s.i2cAddress then s.noteAcks [false]
    else
      let (l, t) := s.sidebandBytes p data
      (t.setPointer (p + data.length)).noteAcks (true :: true :: l))

/-- I2C_READ from a target address: bytes from the last pointer, which increments and wraps (R442).
(DESIGN CHOICE, log entries 124 and 247.) -/
def execI2cRead (read : I2cFetch) (s : State) : Host.Outcome State Fault Refusal :=
  let p := s.boot.sbPointer
  let l := (List.range read.count).map (fun i => (s.sidebandRead ((p + i) % 256)).setWidth 32)
  done (if read.address ≠ s.i2cAddress then s.noteAcks [false]
    else ({ s with portWords := l, portFlag := false, portPoison := false }.setPointer (p + read.count)).noteAcks [true])

/-- A write of MBX_CTRL (R444). -/
def State.writeMbxCtrl (s : State) (v : Word) : State :=
  let s := if v.getLsbD 0 then s.setFld F.MBX_STATUS_H2D_FULL 0 else s
  if !v.getLsbD 1 then s
  else if s.bit F.MBX_STATUS_D2H_FULL then s.setBit F.MBX_EVT_REJECT
  else s.setFld F.MBX_STATUS_D2H_FULL 1

/-- H2D_DONE (R444). -/
def execH2dDone (value : Word) (s : State) : Host.Outcome State Fault Refusal := done (s.writeMbxCtrl (value ||| 1))

/-- D2H_SEND (R444). -/
def execD2hSend (value : Word) (s : State) : Host.Outcome State Fault Refusal := done (s.writeMbxCtrl (value ||| 2))

/-- A write of MBX_STATUS: while D2H_FULL is set, D2H_LEN stays and the write is rejected (R444). (DEDUCED, log entry 123.) -/
def State.writeMbxStatus (s : State) (v : Word) : State :=
  if s.bit F.MBX_STATUS_D2H_FULL then (s.setFld F.MBX_STATUS_READY (v.toNat / 4)).setBit F.MBX_EVT_REJECT
  else s.plainWrite .MBX_STATUS v

/-- A write of MBX_D2H (R444). -/
def State.writeD2h (s : State) (i : Nat) (v : Word) : State :=
  if s.bit F.MBX_STATUS_D2H_FULL then s.setBit F.MBX_EVT_REJECT else s.wr .MBX_D2H v i

/-! ### Flash writes (R463) -/

/-- A write of XSPI_CMD by keeper `k` (R463): OP is set, a GO while BUSY is ignored, and an operation whose range touches the booted slot is refused.
(DESIGN CHOICE, log entries 127 and 187.) -/
def State.writeXspiCmd (s : State) (k : Nat) (v : Word) : State :=
  let busy := s.bit F.XSPI_STATUS_BUSY
  let s := s.setFld F.XSPI_CMD_OP v.toNat
  let op := s.fld F.XSPI_CMD_OP
  if busy ∨ !v.getLsbD 31 ∨ (op ≠ 1 ∧ op ≠ 2) then s
  else
    let n := if op = 1 then 0x10000 else 0x100
    let a := s.fld F.XSPI_ADDR_ADDR / n * n
    let hit := match s.boot.slot with
      | some i => decide (a < (i + 1) * 0x400000 ∧ i * 0x400000 < a + n)
      | none => false
    if hit then
      (s.setFld F.XSPI_STATUS_ERR 1).raise { code := 0x05, cls := 1, unit := k, d0 := BitVec.ofNat 32 a }
    else
      let data := bytesOfWords ((List.range 64).map (fun i => s.rd .XSPI_BUF i))
      let job : FlashJob := if op = 1 then .erase a else .program a data
      ({ s with boot := { s.boot with flash := some job } }.setFld F.XSPI_STATUS_BUSY 1).setFld F.XSPI_CMD_GO 1

/-- XSPI_SECTOR_ERASE (R463). -/
def execXspiSectorErase (k : Fin 4) (value : Word) (s : State) : Host.Outcome State Fault Refusal :=
  done (s.writeXspiCmd k (value &&& 0xFFFFFFFC ||| 0x80000001))

/-- XSPI_PAGE_PROGRAM (R463). -/
def execXspiPageProgram (k : Fin 4) (value : Word) (s : State) : Host.Outcome State Fault Refusal :=
  done (s.writeXspiCmd k (value &&& 0xFFFFFFFC ||| 0x80000002))

/-- Changes `n` bytes of the flash by a function of their place and old value. (PRESUMED, log entry 10.) -/
def State.changeFlash (s : State) (a n : Nat) (f : Nat → Byte → Byte) : State :=
  (List.range n).foldl (fun s i =>
    let at_ := flashBase + a + i
    if a + i < 0x10000000 then s.setByte at_ (f i (s.byteAt at_)) else s) s

/-- XSPI_DONE: the flash reports ready (R463). (PRESUMED, log entry 10.) -/
def execXspiDone (s : State) : Host.Outcome State Fault Refusal :=
  let fin (s : State) : State :=
    ({ s with boot := { s.boot with flash := none } }.setFld F.XSPI_STATUS_BUSY 0).setFld F.XSPI_CMD_GO 0 |>.setBit F.BOOT_EVT_XSPI_DONE
  done (match s.boot.flash with
    | some (.erase a) => fin (s.changeFlash a 0x10000 (fun _ _ => 0xFF))
    | some (.program a d) => fin (s.changeFlash a d.length (fun i b => b &&& d.getD i 0))
    | none => s)

/-! ### OTP (R467, R468, R502) -/

/-- Whether a byte of the OTP is one R467 lists. -/
def otpListed (o : Nat) : Bool :=
  decide (o < 0x16 ∨ (0x18 ≤ o ∧ o < 0x28) ∨ (0x40 ≤ o ∧ o < 0x230) ∨ (0x240 ≤ o ∧ o < 0x2C0) ∨ (0x300 ≤ o ∧ o < 0x330) ∨
    (0x400 ≤ o ∧ o < 0x800))

/-- The bits of an OTP word that lie in listed bytes. -/
def otpMask (w : Nat) : Word :=
  let b (i : Nat) : Byte := if otpListed (4 * w + i) then 0xFF else 0
  b 3 ++ b 2 ++ b 1 ++ b 0

/-- Whether R468 refuses to program bits of a word. -/
def State.otpRefuses (s : State) (w : Nat) (bits : Word) : Bool :=
  let o := 4 * w
  otpMask w == 0 || (s.otpConfig 2 && decide (o < 0x20)) || (s.otpConfig 3 && decide (0x40 ≤ o ∧ o < 0x230)) || decide (0x400 ≤ o) ||
    decide (0x240 ≤ o ∧ o < 0x2C0) ||
    (o == 0x24 && s.boot.phase == 0 && (bits.getLsbD s.boot.ecdsaSlot || bits.getLsbD (4 + s.boot.lmsSlot)))

/-- Begins an OTP operation. -/
def State.otpStart (s : State) (j : OtpJob) : State := { s with boot := { s.boot with otpJob := some j } }.setFld F.OTP_STATUS_BUSY 1

/-- A write of OTP_CMD (R467, R468): OP is set, and a GO while BUSY is ignored (R476); `vppLow` tells whether VPP_OTP is below 1.71 V (R502).
(DEDUCED, log entry 129; DESIGN CHOICE, log entry 188.) -/
def State.writeOtpCmd (s : State) (v : Word) (vppLow : Bool) : State :=
  let s := s.setFld F.OTP_CMD_OP v.toNat
  let w := s.fld F.OTP_ADDR_WORD
  let bits := s.rd .OTP_DATA
  if s.bit F.OTP_STATUS_BUSY ∨ !v.getLsbD 31 then s
  else match s.fld F.OTP_CMD_OP with
    | 1 => (s.otpStart (.read w)).setFld F.OTP_CMD_GO 1
    | 2 => if vppLow || s.otpRefuses w bits then s.setFld F.OTP_STATUS_ERR 1 else (s.otpStart (.program w bits)).setFld F.OTP_CMD_GO 1
    | _ => s

/-- OTP_READ (R467). -/
def execOtpRead (value : Word) (s : State) : Host.Outcome State Fault Refusal :=
  done (s.writeOtpCmd (value &&& 0xFFFFFFFC ||| 0x80000001) false)

/-- OTP_PROGRAM (R468, R502). -/
def execOtpProgram (value : Word) (vppLow : Bool) (s : State) : Host.Outcome State Fault Refusal :=
  done (s.writeOtpCmd (value &&& 0xFFFFFFFC ||| 0x80000002) vppLow)

/-- A write of SVN_ADV (R468): VALUE and KIND are set, and a GO while BUSY is ignored; a VALUE below the counter does nothing; for firmware one above the running SVN is refused.
(DEDUCED, log entry 129; DESIGN CHOICE, log entry 188.) -/
def State.writeSvnAdv (s : State) (v : Word) (vppLow : Bool) : State :=
  let s := (s.setFld F.SVN_ADV_VALUE v.toNat).setFld F.SVN_ADV_KIND (v.toNat / 2 ^ 12)
  let n := s.fld F.SVN_ADV_VALUE
  let knot := s.bit F.SVN_ADV_KIND
  if s.bit F.OTP_STATUS_BUSY ∨ !v.getLsbD 31 then s
  else if vppLow || (!knot && decide (s.fld F.BOOT_SVN_SVN < n)) then s.setFld F.OTP_STATUS_ERR 1
  else if n < s.svnCounter knot then s
  else (s.otpStart (.advance knot n)).setFld F.SVN_ADV_GO 1

/-- SVN_ADVANCE (R468). -/
def execSvnAdvance (value : Word) (vppLow : Bool) (s : State) : Host.Outcome State Fault Refusal :=
  done (s.writeSvnAdv (value ||| 0x80000000) vppLow)

/-- Sets bits of an OTP word: bits program from 0 to 1 only (R467). -/
def State.otpSet (s : State) (w : Nat) (bits : Word) : State :=
  { s with boot := { s.boot with otp := s.boot.otp.set w 0 (s.boot.otp.look w 0 ||| bits) } }

/-- What an OTP read returns: ID_SEED and what R467 does not list read zero. -/
def State.otpWord (s : State) (w : Nat) : Word :=
  if 0x300 ≤ 4 * w ∧ 4 * w < 0x330 then 0 else s.boot.otp.look w 0 &&& otpMask w

/-- Sets the counter bits up to VALUE (R468). -/
def State.otpAdvance (s : State) (knot : Bool) (n : Nat) : State :=
  (List.range 16).foldl (fun s i =>
    let have_ := min 32 (n - 32 * i)
    s.otpSet ((if knot then 0x280 / 4 else 0x240 / 4) + i) (BitVec.ofNat 32 (2 ^ have_ - 1))) s

/-- OTP_DONE (R468). -/
def execOtpDone (s : State) : Host.Outcome State Fault Refusal :=
  let fin (s : State) : State :=
    ((({ s with boot := { s.boot with otpJob := none } }.setFld F.OTP_STATUS_BUSY 0).setFld F.OTP_CMD_GO 0).setFld F.SVN_ADV_GO 0).setBit
      F.BOOT_EVT_OTP_DONE
  done (match s.boot.otpJob with
    | some (.read w) => fin (s.wr .OTP_DATA (s.otpWord w))
    | some (.program w b) => fin (s.otpSet w (b &&& otpMask w))
    | some (.advance knot n) => fin (s.otpAdvance knot n)
    | none => s)

end Sys2Proof.Machine
end

