-- ==== Sys2Proof/Machine/SelfTest.lean ====
section
/-! DEFINITION. The fault log's port (R479), core audits (R483 to R487), blanking slices (R488) and fault injection (R489). -/

namespace Sys2Proof.Machine

/-- A write of FLT_POP removes the oldest record; on an empty log it does nothing (R479). -/
def State.popFault (s : State) : State := { s with log := s.log.drop 1 }

/-- FAULT_POP (R479): a write of FLT_POP, whatever its value. -/
def execFaultPop (_value : Word) (s : State) : Host.Outcome State Fault Refusal := done s.popFault

/-- Word `i` of the oldest record, zero when the log is empty (R478, R479). -/
def State.faultWord (s : State) (i : Nat) : Word :=
  match s.log with
  | [] => 0
  | r :: _ =>
    [BitVec.ofNat 32 (r.fault.code % 256 + r.fault.cls % 16 * 256 + r.fault.unit % 256 * 65536), r.seq, BitVec.ofNat 32 r.time,
      BitVec.ofNat 32 (r.time / 2 ^ 32), r.fault.d0, r.fault.d1, r.fault.d2, r.fault.d3].getD i 0

/-! ### Audits -/

/-- The first byte of the save area (R491). -/
def State.saveBase (s : State) : Nat := storeBase 2 + s.fld F.TST_SAVE_ADDR * 256

/-- Whether the 384 KB of the save area lie in the partial-sum store (R491), in bands that are ACTIVE. -/
def State.saveOk (s : State) : Bool :=
  decide (s.saveBase + 0x60000 ≤ storeBase 2 + storeSize 2) && s.servedBytes s.saveBase 0x60000

/-- The blocks of 256 bytes that the saved state fills: at most 368 KB of the area (R483). (DEDUCED, log entry 141.) -/
def saveBlocks : Nat := 1472

/-- What the restore overwrites of a core's registers: its ring table and its expected chain tag (R483). -/
def State.savedRegs (s : State) (c : Nat) : List Word :=
  (List.range 16).flatMap (fun r => [s.rd .RING_LO c r, s.rd .RING_HI c r, s.rd .RING_STRIDE c r]) ++ [s.rd .CHAIN_TAG c]

/-- Writes those registers back. -/
def State.restoreRegs (s : State) (c : Nat) (l : List Word) : State :=
  ((List.range 16).foldl (fun s r => ((s.wr .RING_LO (l.getD (3 * r) 0) c r).wr .RING_HI (l.getD (3 * r + 1) 0) c r).wr .RING_STRIDE
    (l.getD (3 * r + 2) 0) c r) s).wr .CHAIN_TAG (l.getD 48 0) c

/-- Takes a core out of the list of reported deferrals: an audit of it has started or been requested (R486). -/
def State.clearDeferred (s : State) (c : Nat) : State :=
  { s with tst := { s.tst with deferred := s.tst.deferred.filter (fun d => d != c) } }

/-- The raster whose frames count for audits: raster 0, or raster 1 while O0 is disabled (R486).
(DESIGN CHOICE, log entry 140.) -/
def State.auditRaster (s : State) : Nat := if s.bit F.SRC_CTRL_EN 0 then 0 else 1

/-- Starts an audit of core `c` with a HALT request (R483, R486, R487). (DEDUCED, log entry 137.) -/
def State.startAudit (s : State) (c : Nat) (forced asked : Bool) : State :=
  let a : Audit := { core := c, forced := forced, asked := asked, since := s.time, seq := (s.rasters.look s.auditRaster {}).seq }
  let s := { s.clearDeferred c with tst := { (s.clearDeferred c).tst with audit := some a } }
  (((s.setFld F.TST_AUDIT_REQ_GO 0).setFld F.TST_STATUS_AUDIT_BUSY 1).setFld F.TST_STATUS_AUDIT_CORE c).haltCore c

/-- Counts a deferral, and reports the first one (R486). (DEDUCED, log entry 139.) -/
def State.deferAudit (s : State) (c reason : Nat) : State :=
  let s := (s.addSat F.TST_DEFER_CNT_COUNT).setBit F.TST_EVT_DEFERRED
  if s.tst.deferred.contains c then s
  else { s with tst := { s.tst with deferred := c :: s.tst.deferred } }.raise
    { code := 0x16, cls := 11, unit := c, d0 := BitVec.ofNat 32 reason }

/-- The next core of the rotation after the last one audited (R486). -/
def State.nextAudit (s : State) : Option Nat :=
  ((List.range 32).map (fun i => (s.tst.last + 1 + i) % 32)).find? (fun c => (s.fld F.TST_AUDIT_MASK_MASK).testBit c && s.coreOn c)

/-- Whether a bind slot that is not FREE names a core (R486). -/
def State.slotNames (s : State) (c : Nat) : Bool :=
  (List.range 32).any (fun i => s.slotState i != 0 && (s.fld F.BIND_CORES_MASK i).testBit c)

/-- An audit boundary (R486): the pending request or the rotation's next core is taken, and started or deferred. -/
def State.auditBoundary (s : State) (applied : Bool) : State :=
  if s.tst.audit.isSome then s
  else
    let pick : Option (Nat × Bool) :=
      match s.tst.request with
      | some c => some (c, true)
      | none => if s.bit F.TST_CTRL_AUTO_AUDIT then s.nextAudit.map (fun c => (c, false)) else none
    match pick with
    | none => s
    | some (c, asked) =>
      if !s.bit F.FAB_STATUS_AUDIT_OK then s.deferAudit c 1
      else if applied || s.slotNames c then s.deferAudit c 2
      else { s with tst := { s.tst with request := none } }.startAudit c false asked

/-- A write of TST_AUDIT_REQ (R487, R491): GO starts a forced audit at once, or leaves a request pending; while an audit is in
progress or a request pends it changes nothing but REJECT. -/
def State.writeAuditReq (s : State) (v : Word) : State :=
  if !v.getLsbD 31 then s.plainWrite .TST_AUDIT_REQ v
  else if s.tst.audit.isSome ∨ s.tst.request.isSome then s.setBit F.TST_EVT_REJECT
  else
    let s := s.plainWrite .TST_AUDIT_REQ v
    let c := s.fld F.TST_AUDIT_REQ_CORE
    let s := s.clearDeferred c
    if s.bit F.TST_AUDIT_REQ_FORCE then
      let x := s.streamOf c
      let s := if x < 2 then { s with tst := { s.tst with forcedStreams := (x :: s.tst.forcedStreams).eraseDups } } else s
      s.startAudit c true true
    else { s with tst := { s.tst with request := some c } }

/-- AUDIT_REQUEST (R487). -/
def execAuditRequest (value : Word) (s : State) : Host.Outcome State Fault Refusal := done (s.writeAuditReq value)

/-- Saves a core's state through its partial-sum store port; the layout of the saved state is the device's own, so the words
written are free values (R483). (DEDUCED, log entry 141; DESIGN CHOICE, log entry 14.) -/
def State.saveCore (s : State) (c : Nat) : State :=
  let (g, s) := s.draw
  (List.range saveBlocks).foldl (fun s i =>
    let a := s.saveBase + 256 * i
    (s.turnFor (.core c) a).putWords a false ((List.range 64).map (fun j => Config.freeWord g (64 * i + j)))) s

/-- AUDIT_RUN: the core under audit is HALTED; its CORE_EN bit clears, its streams are suspended and its state is saved (R483). -/
def execAuditRun (s : State) : Host.Outcome State Fault Refusal :=
  done (match s.tst.audit with
    | none => s
    | some a =>
      if a.running ∨ (s.core a.core).state ≠ 3 then s
      else
        let s := (s.clrBit F.CORE_EN_EN a.core).noteVlow
        let s := { s with tst := { s.tst with audit := some { a with running := true, saved := s.savedRegs a.core } } }
        if s.saveOk then s.saveCore a.core else s)

/-- Reads the saved state back through the core's port; answers whether no word of it is poisoned (R483).
(DESIGN CHOICE, log entry 14.) -/
def State.readSaved (s : State) (c : Nat) : Bool × State :=
  (List.range saveBlocks).foldl (fun (acc : Bool × State) i =>
    let a := acc.2.saveBase + 256 * i
    let ((_, p), s) := (acc.2.turnFor (.core c) a).getWords c a 64
    (acc.1 && !p, s)) (true, s)

/-- AUDIT_COMPLETE: the audit program ends with a signature and the core's measured rate, in 0.001 Ghs (R483, R485). -/
def State.completeAudit (s : State) (signature : BitVec 64) (rate : Nat) : State :=
  match s.tst.audit with
  | none => s
  | some a =>
    if !a.running then s
    else
      let c := a.core
      let (clean, s) := if s.saveOk then s.readSaved c else (false, s)
      let pass := clean && signature == Config.auditSignature && decide (1200 ≤ rate ∧ s.vLow ≤ s.railNow)
      let s := s.auditOver
      let s := { s with tst := { s.tst with last := c } }.setFld F.TST_STATUS_AUDIT_BUSY 0
      let s := ((s.setFld F.TST_AUDIT_LAST_CORE c).setFld F.TST_AUDIT_LAST_PASS (if pass then 1 else 0)).setFld F.TST_AUDIT_LAST_SEQ
        a.seq.toNat
      let s := s.addSat F.TST_AUDIT_CNT_COUNT
      if pass then
        ((((s.restoreRegs c a.saved).setBit F.CORE_EN_EN c).noteVlow).startCore c).setBit F.TST_EVT_AUDIT_PASS
      else
        ((s.withdrawCore c).setBit F.TST_EVT_AUDIT_FAIL).raise
          { code := 0x0A, cls := 11, unit := c, d0 := 1, d1 := signature.extractLsb' 0 32 }

/-- AUDIT_COMPLETE (R483, R485). (DEDUCED, log entry 134; DESIGN CHOICE, log entries 14 and 142.) -/
def execAuditComplete (signature : BitVec 64) (rate : Nat) (s : State) : Host.Outcome State Fault Refusal :=
  done (s.completeAudit signature rate)

/-- An engine that a HALT request stopped goes on. -/
def Engine.unhalt (x : Engine) : Engine := { x with stopped := false, withdraw := false }

/-- The START request that ends an audit whose core was not HALTED in time (R486): a HALT still under way is given up, unless
the core's program executed HALT itself. (DEDUCED, log entry 138.) -/
def State.undoHalt (s : State) (c : Nat) : State :=
  let k := s.core c
  if k.state = 2 then
    if k.haltReq ∧ !k.fetch.atHalt ∧ !k.exec.atHalt then
      s.setCore c { k with haltReq := false, fetch := k.fetch.unhalt, exec := k.exec.unhalt }
    else s
  else s.startCore c

/-- AUDIT_HALT_TIMEOUT: the core is not HALTED within 20 µs; START is requested and the audit deferred.  A forced audit has no
such limit (R486, R487). (DEDUCED, log entry 138.) -/
def execAuditHaltTimeout (s : State) : Host.Outcome State Fault Refusal :=
  done (match s.tst.audit with
    | none => s
    | some a =>
      if a.running ∨ a.forced ∨ (s.core a.core).state = 3 ∨ s.elapsed a.since < 20000 then s
      else
        let s := s.auditOver
        let s := { s with tst := { s.tst with request := if a.asked then some a.core else s.tst.request } }
        ((s.setFld F.TST_STATUS_AUDIT_BUSY 0).undoHalt a.core).deferAudit a.core 3)

/-! ### Slices (R488) -/

/-- The kind the next slice runs: kinds rotate through the MASK bits set. (DEDUCED, log entry 144.) -/
def State.nextSlice (s : State) : Option Nat :=
  ((List.range 3).map (fun i => (s.tst.sliceNext + i) % 3)).find? (fun k => (s.fld F.TST_SLICE_MASK).testBit k)

/-- A slice's length, µs (R491). -/
def State.sliceUs (s : State) : Nat := max 10 (s.fld F.TST_SLICE_SLICE_US)

/-- When the first release instant of raster 0's next frame is, in ns after its boundary: Rel of the first line of each enabled
path's layer (R12, R353). (DEDUCED, log entry 144.) -/
def State.firstRelease (s : State) : Option Rat :=
  let l := [0, 1].filterMap (fun x =>
    if s.bit F.INP_CTRL_EN x ∧ s.pathRaster x = 0 then (s.pathRect x).map (fun r => (r.2.1 : Int) - 2 - s.windowOf x) else none)
  let blank : Int := (s.frc F.TMG_V_VTOTAL 0 : Int) - s.frc F.TMG_V_VACT 0 + (s.raster 0).adj
  match l with
  | [] => none
  | n :: r => some ((blank + r.foldl min n : Int) * s.linePeriod 0)

/-- Whether a slice started 10 µs after the boundary ends 20 µs before the first release instant of the next frame (R488).
(DEDUCED, log entry 144.) -/
def State.sliceFits (s : State) : Bool :=
  !s.running 0 || match s.firstRelease with
    | some t => decide (((10000 + s.sliceUs * 1000 + 20000 : Nat) : Rat) ≤ t)
    | none => true

/-- Whether a slice's instant has come: one in each vertical blanking interval of raster 0, 10 µs after its boundary, or at each
management tick while it does not run (R488). -/
def State.sliceNow (s : State) : Bool :=
  s.tst.sliceDue && (!s.running 0 || decide (10000 ≤ s.elapsed (s.raster 0).boundaryAt))

/-- SLICE_START (R488). -/
def execSliceStart (s : State) : Host.Outcome State Fault Refusal :=
  done (if !s.bit F.TST_CTRL_SLICE_EN ∨ s.bit F.TST_STATUS_SLICE_BUSY ∨ !s.sliceNow then s
    else
      let s := { s with tst := { s.tst with sliceDue := false } }
      match s.nextSlice with
      | none => s
      | some k =>
        if s.sliceFits then
          { (s.setFld F.TST_STATUS_SLICE_BUSY 1).setFld F.TST_STATUS_SLICE_KIND k with tst := { s.tst with sliceNext := (k + 1) % 3 } }
        else s.addSat F.TST_SKIP_CNT_COUNT)

/-- SLICE_END (R488). (DESIGN CHOICE, log entry 143.) -/
def execSliceEnd (passed : Bool) (s : State) : Host.Outcome State Fault Refusal :=
  done (if !s.bit F.TST_STATUS_SLICE_BUSY then s
    else
      let k := s.fld F.TST_STATUS_SLICE_KIND
      let s := s.setFld F.TST_STATUS_SLICE_BUSY 0
      if passed then s
      else (s.setBit F.TST_EVT_SLICE_FAIL).raise
        { code := 0x0A, cls := 11, unit := 0x80 + k, d0 := BitVec.ofNat 32 k })

/-! ### Fault injection (R489) -/

/-- A write of TST_INJ_CTRL (R489, R491): ARM arms an injection in place of any armed one, unless INJ_EN is clear or the two bits
of kind 1 are equal. (DEDUCED, log entry 145.) -/
def State.writeInjCtrl (s : State) (v : Word) : State :=
  if !v.getLsbD 31 then s.plainWrite .TST_INJ_CTRL v
  else if !s.bit F.TST_CTRL_INJ_EN then s.plainWrite .TST_INJ_CTRL (v &&& 3)
  else
    let kind := v.toNat % 4
    let b0 := min 39 (s.fld F.TST_INJ_PARAM_BIT0)
    let b1 := min 39 (s.fld F.TST_INJ_PARAM_BIT1)
    if kind = 1 ∧ b0 = b1 then s.setBit F.TST_EVT_REJECT
    else
      let s := s.plainWrite .TST_INJ_CTRL (v &&& 3)
      let addr := s.fld F.TST_INJ_ADDR_LO_ADDR * 4 + s.fld F.TST_INJ_ADDR_HI_ADDR * 2 ^ 32
      let j : Injection :=
        { kind := kind, addr := addr, bit0 := b0, bit1 := b1, core := s.fld F.TST_INJ_PARAM_CORE
          until_ := (s.time + 1000 * max 1 (s.fld F.TST_INJ_DUR_US)) % 2 ^ 64 }
      { s with tst := { s.tst with injection := some j } }

/-- INJECTION_ARM (R489). -/
def execInjectionArm (value : Word) (s : State) : Host.Outcome State Fault Refusal := done (s.writeInjCtrl value)

/-- INJECTION_HOLD_END: TST_INJ_DUR µs after a kind 3 ARM the hold ends and is counted (R489). -/
def execInjectionHoldEnd (s : State) : Host.Outcome State Fault Refusal :=
  done (match s.tst.injection with
    | some j =>
      if j.kind = 3 ∧ s.reached j.until_ then { s with tst := { s.tst with injection := none } }.addSat F.TST_INJ_CNT_COUNT else s
    | none => s)

end Sys2Proof.Machine
end

