-- ==== Sys2Proof/Machine/Boundary.lean ====
section
/-! DEFINITION. The frame boundary of a raster (R28 to R30, R53 to R57, R237, R288, R305, R327, R349, R353, R359, R415, R419, R486)
and the management tick (R292, R427, R428). -/

namespace Sys2Proof.Machine

/-! ### The frame report (R28 to R30) -/

/-- Replaces what the device keeps for stream `x`. -/
def State.setPic (s : State) (x : Nat) (p : PicStream) : State := { s with pics := s.pics.put x p }

/-- Stripes of a stream in its report: those of its plan; one for a layer shown without a plan. -/
def State.stripeCount (s : State) (x : Nat) : Nat :=
  match (s.pics.look x {}).plan with
  | some p => p.skeins.length
  | none => if (s.layerOf x).isSome then 1 else 0

/-- Copies the items of the closing frame of stream `x` into the snapshot bank, under frame sequence number `seq`, and raises the
stream's frame-report source (R28, R29). (DESIGN CHOICE, log entry 152.) -/
def State.snapshot (s : State) (x : Nat) (seq : Word) : State :=
  let p := s.pics.look x {}
  let (slack, line, stripe) : Int × Nat × Nat := p.minSlack.getD (0, 0, 0)
  let s := ((s.wr .RPT_SEQ seq x).wr .RPT_TIME_LO (BitVec.ofNat 32 s.nt) x).wr .RPT_TIME_HI (BitVec.ofNat 32 (s.nt / 2 ^ 32)) x
  let s := (s.setFld F.RPT_CFG_WINDOW (s.windowOf x) x).setFld F.RPT_CFG_STRIPES (s.stripeCount x) x
  let s := ((s.setFld F.RPT_MIN_SLACK (lowBits 16 slack) x).setFld F.RPT_MINPOS_LINE line x).setFld F.RPT_MINPOS_STRIPE stripe x
  let s := ((s.wr .RPT_FORCED (BitVec.ofNat 32 p.forced) x).wr .RPT_POISONED (BitVec.ofNat 32 p.poisoned) x).wr .RPT_LATE
    (BitVec.ofNat 32 p.late) x
  let s := (s.wr .RPT_POLICY (BitVec.ofNat 32 p.policy) x).wr .RPT_MISSING (BitVec.ofNat 32 p.missing) x
  { s with irq := { s.irq with frameLatch := s.irq.frameLatch.set x false true } }

/-- Resets the frame items of stream `x` (R29), and what holds to the frame boundary: SHAPE_OVER (R234), a rebind (R53), a forced
audit that has completed (R487).  Its lines count on from the closing frame's `h` lines, unless an epoch has bound it anew (R328). -/
def State.resetItems (s : State) (x h : Nat) : State :=
  let p := s.pics.look x {}
  let forcing := match s.tst.audit with
    | some a => a.forced && s.streamOf a.core == x
    | none => false
  { s.setPic x { plan := p.plan, unprepared := p.unprepared, forcedFrame := p.forcedFrame, lineBase := if p.rebound then 0 else p.lineBase + h } with
    tst := { s.tst with forcedStreams := s.tst.forcedStreams.filter (fun y => y != x || forcing) } }

/-- Lowest frame minimum slack of the active streams in the closing frame; 32,767 with none (R415). -/
def State.lowestSlack (s : State) : Int :=
  ([0, 1].filter (fun x => (s.pics.look x {}).active)).foldl (fun m x =>
    match (s.pics.look x {}).minSlack with
    | some v => min m v.1
    | none => m) 32767

/-! ### Geometry records (R237) -/

/-- The eight words of a geometry record. -/
def State.geometryRecord (s : State) (x st : Nat) (seq : Word) : List Word :=
  let (start, width) := s.stripeAt x st
  [seq, BitVec.ofNat 32 (start + width * 65536), BitVec.ofNat 32 (st + s.stripeCount x * 256), 0, 0, 0, 0, 0]

/-- Whether the frame that begins finds a stream active: some stripe of its plan is not FORCED (R43). -/
def State.streamActive (s : State) (x : Nat) : Bool :=
  match (s.pics.look x {}).plan with
  | some p => (List.range p.skeins.length).any (fun st => !s.stripeForced x st)
  | none => false

/-- Writes the geometry record of every stripe of an active stream (R237). (DEDUCED, log entry 154.) -/
def State.writeGeometry (s : State) (x : Nat) (seq : Word) : State :=
  match (s.pics.look x {}).plan with
  | none => s
  | some p =>
    if !s.streamActive x then s
    else (List.range p.skeins.length).foldl (fun s st =>
      (p.records.getD st []).foldl (fun s a => if s.storeOk a 8 then (s.turnFor (.sys 3 0) a).putWords a false (s.geometryRecord x st seq) else s) s) s

/-! ### Shadows and layers -/

/-- Brings the waiting writes of the paths of raster `r` into force (R319). (DEDUCED, log entry 191.) -/
def State.takeBoundaryShadow (s : State) (r : Nat) : State :=
  let mine := s.boundaryShadow.filter (fun w => s.pathRaster w.i == r)
  { s with boundaryShadow := s.boundaryShadow.filter (fun w => s.pathRaster w.i != r) }.takeWrites mine false

/-- Whether the size of the layer a path feeds differs from the path's input size times its factors (R307, R327). -/
def State.sizeWrong (s : State) (x : Nat) : Bool :=
  s.bit F.INP_CTRL_EN x && match s.layerOf x with
    | some l =>
      let (w, h) := s.inputSize x
      s.pathRaster x == 0 && (s.frc F.LAY_SIZE_W l != w * (s.factors x).1 || s.frc F.LAY_SIZE_H l != h * (s.factors x).2)
    | none => false

/-- Marks for the next frame whether a path's layer is transparent: its sink has no video, in locked mode, and from then until Rel(0)
of an aligned frame, or its size does not fit (R31, R306, R327). -/
def State.markPath (s : State) (x : Nat) : State :=
  let bad := s.sizeWrong x
  let s := s.setPath x { s.path x with noVideo := (s.path x).noVideo || !s.bit F.SNK_STATUS_VIDEO (s.fld F.INP_CTRL_SRC x), sizeBad := bad }
  if bad then s.setBit F.CMP_EVT_SIZE else s

/-- The path's frame ends with the raster's. -/
def State.endPath (s : State) (x : Nat) : State := s.setPath x { s.path x with started := false, next := 0, height := 0 }

/-- Writes of the guarded regions of raster `r`'s ports take effect (R359). -/
def State.takeRegions (s : State) (r : Nat) : State :=
  (List.range 16).foldl (fun s g =>
    if s.portRaster (s.fld F.GRD_CFG_PORT g) = r then ((s.take .GRD_POS g).take .GRD_SIZE g).take .GRD_EXP g else s) s

/-! ### Epochs and audits -/

/-- The raster whose boundaries evaluate the epoch: O0's, or O1's while O0 is disabled; none while neither port is enabled
(R288). (DESIGN CHOICE, log entry 150.) -/
def State.epochRaster (s : State) : Option Nat :=
  if s.bit F.SRC_CTRL_EN 0 then some 0 else if s.bit F.SRC_CTRL_EN 1 then some (s.portRaster 1) else none

/-- Evaluates the epoch; answers whether it applied (R288). -/
def State.epochBoundary (s : State) : Bool × State :=
  let t := s.evaluateEpoch
  (decide (s.epochState = 2 ∧ t.epochState ≠ 2 ∨ s.epochState = 3 ∧ t.kn.pend ≠ s.kn.pend), t)

/-- Whether the boundaries of raster `r` are audit boundaries (R486). -/
def State.auditAt (s : State) (r : Nat) : Bool := s.auditRaster == r

/-- An automatic takeover takes effect, in force and in the shadow (R419). (DESIGN CHOICE, log entry 98.) -/
def State.autoTakeover (s : State) : State :=
  if !s.tu.takeover then s
  else
    let f := F.SRC_CTRL_MODE
    let key := regKey f.reg 1 0
    let s := s.setFld f 2 1
    let held := f.ins (s.force.look key (regReset f.reg 1 0)) 2
    { s with force := s.force.set key (regReset f.reg 1 0) held, tu := { s.tu with takeover := false } }.setBit F.TIME_EVT_AUTO_TKO

/-! ### The boundary -/

/-- Whether the boundaries of raster `r` bound the reporting frames: raster 0's, or raster 1's while raster 0 does not run
(R521). -/
def State.reportsAt (s : State) (r : Nat) : Bool := r == 0 || !s.running 0

/-- What a late bind forced for the frame that ends (R289). -/
def State.endForced (s : State) (x : Nat) : State := s.setPic x { s.pics.look x {} with forcedFrame := false }

/-- HOLDOVER of a raster: network time's under NETWORK lock (R413), none in a free-running raster. -/
def State.showHoldover (s : State) (r : Nat) : State :=
  match s.frc F.TMG_CTRL_LOCK r with
  | 2 => s.setFld F.TMG_STATUS_HOLDOVER (s.fld F.TIME_STATUS_HOLDOVER) r
  | 1 => s
  | _ => s.setFld F.TMG_STATUS_HOLDOVER 0 r

/-- The raster takes up its next frame: the timing left by an APPLY, the front porch's adjustment, the frame's number (R353, R354,
R412). -/
def State.nextFrame (s : State) (r : Nat) : State :=
  let w := s.raster r
  let s := ([0, 1].filter (fun x => s.pathRaster x == r)).foldl State.endForced s
  let s := match w.pend with
    | some ws => (s.takeTiming r ws).showHoldover r
    | none => s
  { s with rasters := s.rasters.put r { pend := none, seq := w.seq + 1, boundaryAt := s.time, adj := w.adjNext } }.setBit F.TMG_EVT_FRAME 0 r

/-- What every boundary of raster `r` brings into force: the waiting writes, an epoch, whose writes are newer, a commit, the guarded
regions; answers whether an epoch applied (R288, R319, R349, R359). (DEDUCED, log entry 70; DESIGN CHOICE, log entry 151.) -/
def State.applyBoundary (s : State) (r : Nat) (seq : Word) : Bool × State :=
  let s := s.takeBoundaryShadow r
  let (applied, s) := if s.epochRaster = some r then s.epochBoundary else (false, s)
  let s := if r = 0 then s.autoTakeover.evaluateCommit seq else s
  (applied, (s.takeRegions r).noteRates)

/-- A new reporting frame begins (R521), and at raster 0 a vertical blanking interval with its slice (R488). -/
def State.newFrame (s : State) (r : Nat) : State :=
  let s := if s.reportsAt r then { s with frameRaised := [] } else s
  if r = 0 then { s with tst := { s.tst with sliceDue := true } } else s

/-- Forgets what the closing frame of raster `r` had under way. -/
def State.clearFrame (s : State) (r : Nat) : State :=
  { s with cmp := { s.cmp with
      lines := s.cmp.lines.filter (fun c => c.1 / 8192 != r), surf := if r = 0 then [] else s.cmp.surf
      ports := s.cmp.ports.filter (fun c => s.portRaster c.1 != r) } }

/-- The raster starts: at its first boundary after EN and an APPLY (R353). (DESIGN CHOICE, log entry 153.) -/
def State.startRaster (s : State) (r : Nat) : State :=
  let s := { s with rasters := s.rasters.put r { s.raster r with seq := 0, adjNext := 0 }
                    tu := { s.tu with trimJ := s.tu.trimJ.set r 0 0, flipRun := s.tu.flipRun.set r 0 0 } }
  let (applied, s) := ((s.nextFrame r).setFld F.TMG_STATUS_RUNNING 1 r).applyBoundary r 0
  let mine := [0, 1].filter (fun x => s.pathRaster x == r)
  let s := mine.foldl (fun s x => s.resetItems x 0) s
  let s := (mine.foldl State.markPath s).clearFrame r
  let s := (mine.foldl (fun s x => s.writeGeometry x 1) s).newFrame r
  if s.auditAt r then s.auditBoundary applied else s

/-- The raster stops at the boundary its EN is found clear at. (DEDUCED, log entry 70.) -/
def State.stopRaster (s : State) (r : Nat) : State :=
  ((s.setFld F.TMG_STATUS_RUNNING 0 r).setFld F.TMG_STATUS_LOCKED 0 r).setFld F.TMG_STATUS_HOLDOVER 0 r

/-- A boundary of a raster that runs (R29, R30): the closing frame is reported under the configuration it had; then the epoch, the
commit and the waiting writes take effect, the belay measures and sets the geometry, and the next frame begins.
(DESIGN CHOICE, log entry 151.) -/
def State.closeFrame (s : State) (r : Nat) (m : FrameMeasures) : State :=
  let closing := (s.raster r).seq
  let mine := [0, 1].filter (fun x => s.pathRaster x == r)
  let heights := mine.map (fun x => match s.layerOf x with
    | some l => s.frc F.LAY_SIZE_H l
    | none => 0)
  let slack := s.lowestSlack
  let s := (mine.zip heights).foldl (fun s p => s.advance p.1 p.2) s
  let s := if r = 0 then s.belayClose else s
  let s := mine.foldl (fun s x => s.snapshot x closing) s
  let s := mine.foldl State.endPath s
  let (applied, s) := (s.nextFrame r).applyBoundary r closing
  let s := if r = 0 then s.belayBoundary m.busyNs else s
  let s := (mine.zip heights).foldl (fun s p => s.resetItems p.1 p.2) s
  let s := mine.foldl State.markPath s
  let s := mine.foldl (fun s x => s.writeGeometry x (closing + 1)) (s.clearFrame r)
  let s := if r = 0 then s.announceFlip closing slack else s
  let s := s.newFrame r
  let s := if s.auditAt r then s.auditBoundary applied else s
  if s.bit F.TMG_CTRL_EN r then s else s.stopRaster r

/-- Whether a raster that stands is to start: after EN and an APPLY, and locked to network time not before its instant (R353, R411). -/
def State.startDue (s : State) (r : Nat) : Bool :=
  (s.raster r).pend.isSome && s.bit F.TMG_CTRL_EN r && (s.raster r).startAt.all (fun t => decide (t ≤ s.nt))

/-- FRAME_BOUNDARY of raster `r` (R29). -/
def execFrameBoundary (r : Fin 2) (m : FrameMeasures) (s : State) : Host.Outcome State Fault Refusal :=
  done (if s.running r then s.closeFrame r m
    else if s.startDue r then s.startRaster r
    else s)

/-! ### The management tick (R427, R428) -/

/-- TICK of keeper `k` (R427, R428). -/
def State.tickKeeper (s : State) (k : Nat) : State :=
  if s.bit F.KEP_PEVT_TICK k then s.addSat F.TICK_OVERRUN_COUNT 1 k else s.setFld F.KEP_PEVT_TICK 1 k

/-- Takes the counters of the millisecond that ends (R96, R323, R516). -/
def State.takeMeasures (s : State) (m : TickMeasures) : State :=
  let s := (List.range 5).foldl (fun s i => s.setFld F.STO_UTIL_PERMILLE (min 1000 (m.storeUtil.getD i 0)) i) s
  let s := s.setFld F.HYP_UTIL_PERMILLE (min 1000 m.hyperUtil)
  [0, 1].foldl (fun s x => (s.setFld F.MOT_BW_READ (min 65535 (m.motRead.getD x 0)) x).setFld F.MOT_BW_WRITE
    (min 65535 (m.motWrite.getD x 0)) x) s

/-- Network time in µs modulo 2^31, as leases count it (R290). -/
def State.leaseNow (s : State) : Nat := s.nt / 1000 % 2 ^ 31

/-- The lease sweeper's visit to entry `i` (R290, R292). (DEDUCED, log entry 155.) -/
def State.sweepEntry (s : State) (i : Nat) : State :=
  let a := s.fld F.LSE_ADDR_LO_ADDR i * 8 + s.fld F.LSE_ADDR_HI_ADDR i * 2 ^ 32
  let served := storeOf a != some 3 && s.storeOk a 2
  if !s.bit F.LSE_ADDR_HI_VALID i || !served then { s with kn := { s.kn with lease := s.kn.lease.del i } }
  else
    let port := portAt a
    let ((owner, p), s) := (s.turnFor (.sys 3 0) a).getWord port a
    let ((expiry, q), s) := s.getWord port (a + 4)
    let past := (s.leaseNow + 2 ^ 31 - expiry.toNat % 2 ^ 31) % 2 ^ 31
    let expired := !p && !q && owner != 0 && !expiry.getLsbD 31 && decide (1 ≤ past ∧ past < 2 ^ 30)
    if !expired then { s with kn := { s.kn with lease := s.kn.lease.del i } }
    else if s.kn.lease.has i && s.kn.lease.look i 0 == owner then
      let (r, s) := (s.turnFor (.sys 3 0) a).msPerform port a (.swap owner 0)
      let s := { s with kn := { s.kn with lease := s.kn.lease.del i } }
      if r.flag then
        ((((s.setFld F.LSE_LAST_INDEX i).wr .LSE_OWNER owner).addSat F.LSE_COUNT_COUNT).setBit F.KNT_EVT_LEASE_EXPIRED).raise
          { code := 0x1A, cls := 4, unit := 1, d0 := BitVec.ofNat 32 i, d1 := owner }
      else s
    else { s with kn := { s.kn with lease := s.kn.lease.put i owner } }

/-- The lease sweeper (R292). -/
def State.sweep (s : State) : State := if s.bit F.KNT_CTRL_SWEEP_EN then (List.range 256).foldl State.sweepEntry s else s

/-- What a management tick does in place of a frame boundary: it bounds reporting frames and audits while neither raster runs, and
evaluates the epoch while neither source port is enabled (R288, R486, R521). -/
def State.tickBoundary (s : State) : State :=
  let (applied, s) := if s.epochRaster = none then s.epochBoundary else (false, s)
  let s := if s.running 0 then s else { s with tst := { s.tst with sliceDue := true } }
  if s.running 0 || s.running 1 then s
  else ({ s with frameRaised := [] }).auditBoundary applied

/-- Whether the management tick of this value of C, a multiple of 1,000,000, is still to occur (R427). -/
def State.tickDue (s : State) : Bool := s.time % 1000000 == 0 && s.irq.lastTick != some s.time

/-- MANAGEMENT_TICK (R427). (DESIGN CHOICE, log entries 150 and 244.) -/
def execManagementTick (m : TickMeasures) (s : State) : Host.Outcome State Fault Refusal :=
  done (if !s.tickDue then s
    else
      let s : State := { s with irq := { s.irq with lastTick := some s.time } }
      (((List.range 4).foldl State.tickKeeper (s.addWrap F.TICK_COUNT_COUNT)).takeMeasures m).sweep.tickBoundary)

end Sys2Proof.Machine
end

