-- ==== Sys2Proof/Machine/Power.lean ====
section
/-! DEFINITION. HyperRAM initialisation (R505) and the thermal trip (R514). -/

namespace Sys2Proof.Machine

/-- Whether any HyperRAM is installed: CAP 1 to 4 (R506). -/
def State.hyperFitted (s : State) : Bool := decide (1 ≤ s.fld F.HYP_CFG_CAP ∧ s.fld F.HYP_CFG_CAP ≤ 4)

/-- A write of HYP_CTRL (R505): clearing EN clears READY; EN with no capacity is READY at once; INIT starts the configuration of
every device, unless one is in progress or EN is clear. (DEDUCED, log entry 146.) -/
def State.writeHypCtrl (s : State) (v : Word) : State :=
  let s := s.plainWrite .HYP_CTRL v
  if !s.bit F.HYP_CTRL_EN then s.setFld F.HYP_STATUS_READY 0
  else
    let s := if s.hyperFitted then s else s.setFld F.HYP_STATUS_READY 1
    if v.getLsbD 1 then s.setFld F.HYP_STATUS_INIT_BUSY 1 else s

/-- HYPERRAM_INIT (R505). -/
def execHyperramInit (value : Word) (s : State) : Host.Outcome State Fault Refusal := done (s.writeHypCtrl value)

/-- HYPERRAM_INIT_DONE: the channels have been read back; those in `failed` differ (R505). (DEDUCED, log entry 146.) -/
def execHyperramInitDone (failed : BitVec 16) (s : State) : Host.Outcome State Fault Refusal :=
  done (if !s.bit F.HYP_STATUS_INIT_BUSY then s
    else
      let s := s.setFld F.HYP_STATUS_INIT_BUSY 0
      if failed = 0 then (if s.bit F.HYP_CTRL_EN then s.setFld F.HYP_STATUS_READY 1 else s)
      else (s.setFld F.HYP_CHERR_CH (s.fld F.HYP_CHERR_CH ||| failed.toNat)).setFld F.HYP_STATUS_INIT_ERR 1)

/-- THERMAL_TRIP: a core's sensor reads the temperature that trips (R514). -/
def execThermalTrip (c : Fin 32) (reading : Int) (s : State) : Host.Outcome State Fault Refusal := done (s.setTemp c reading)

end Sys2Proof.Machine
end

