-- ==== Sys2Proof/Machine/Cipher.lean ====
section
/-! DEFINITION. AES-256 (FIPS 197) and its Galois/Counter Mode (SP 800-38D), which the spec names for sessions (R473).
(PRESUMED, log entry 22.) -/

namespace Sys2Proof.Machine

/-! ### AES-256 -/

/-- Multiplication by x in the field of AES. -/
def aesDouble (a : Byte) : Byte := if a.msb then (a <<< 1) ^^^ 0x1B else a <<< 1

/-- Multiplication in the field of AES. -/
def aesMul (a b : Byte) : Byte :=
  ((List.range 8).foldl (fun (p : Byte × Byte) i => (if b.getLsbD i then p.1 ^^^ p.2 else p.1, aesDouble p.2)) (0, a)).1

/-- The inverse in the field of AES, of zero zero: the 254th power. -/
def aesInverse (a : Byte) : Byte := (List.range 6).foldl (fun r _ => aesMul (aesMul r r) a) a |> fun r => aesMul r r

/-- The S-box, by its definition. -/
def subByteOf (a : Byte) : Byte :=
  let b := aesInverse a
  b ^^^ b.rotateLeft 1 ^^^ b.rotateLeft 2 ^^^ b.rotateLeft 3 ^^^ b.rotateLeft 4 ^^^ 0x63

/-- The S-box as a table. -/
def subBytes : List Byte := (List.range 256).map (fun i => subByteOf (BitVec.ofNat 8 i))

/-- SubBytes of one byte. -/
def subByte (a : Byte) : Byte := subBytes.getD a.toNat 0

/-- The key schedule: 60 words of four bytes, newest first. -/
def aesSchedule (key : List Byte) : List (List Byte) :=
  let first := ((List.range 8).map (fun i => sub key (4 * i) 4)).reverse
  ((List.range 52).foldl (fun (p : List (List Byte) × Byte) i =>
    let (l, rcon) := p
    let t := l.headD []
    let t := if i % 8 = 0 then xorBytes ((t.drop 1 ++ t.take 1).map subByte) [rcon, 0, 0, 0] else if i % 8 = 4 then t.map subByte else t
    (xorBytes (l.getD 7 []) t :: l, if i % 8 = 0 then aesDouble rcon else rcon)) (first, 1)).1

/-- The 15 round keys. -/
def aesKeys (key : List Byte) : List (List Byte) :=
  let l := (aesSchedule key).reverse
  (List.range 15).map (fun r => ((l.drop (4 * r)).take 4).flatten)

/-- ShiftRows on the 16 bytes of a state, column by column. -/
def shiftRows (s : List Byte) : List Byte := (List.range 16).map (fun i => s.getD ((i + 4 * (i % 4)) % 16) 0)

/-- MixColumns. -/
def mixColumns (s : List Byte) : List Byte :=
  (List.range 16).map (fun i =>
    let at_ (k : Nat) : Byte := s.getD (i / 4 * 4 + (i + k) % 4) 0
    aesDouble (at_ 0) ^^^ (aesDouble (at_ 1) ^^^ at_ 1) ^^^ at_ 2 ^^^ at_ 3)

/-- Encrypts one block under its round keys. -/
def aesBlock (keys : List (List Byte)) (block : List Byte) : List Byte :=
  let s := ((keys.drop 1).take 13).foldl (fun s k => xorBytes (mixColumns (shiftRows (s.map subByte))) k) (xorBytes block (keys.headD []))
  xorBytes (shiftRows (s.map subByte)) (keys.getD 14 [])

/-! ### GCM -/

/-- Multiplication in the field of GHASH, whose first bit is the most significant. -/
def ghashMul (x y : BitVec 128) : BitVec 128 :=
  ((List.range 128).foldl (fun (p : BitVec 128 × BitVec 128) i =>
    (if x.getMsbD i then p.1 ^^^ p.2 else p.1,
      if p.2.getLsbD 0 then (p.2 >>> 1) ^^^ (0xE1#128 <<< 120) else p.2 >>> 1)) (0, y)).1

/-- GHASH of the ciphertext, without additional data, and the lengths. -/
def ghash (h : BitVec 128) (c : List Byte) : BitVec 128 :=
  let l := c ++ List.replicate ((16 - c.length % 16) % 16) 0 ++ beBytes 8 0 ++ beBytes 8 (8 * c.length)
  (List.range (l.length / 16)).foldl (fun y i => ghashMul (y ^^^ BitVec.ofNat 128 (beField l (16 * i) 16)) h) 0

/-- Counter mode from counter block `iv` ‖ 2 on. -/
def gcmCtr (keys : List (List Byte)) (iv l : List Byte) : List Byte :=
  (List.range ((l.length + 15) / 16)).flatMap (fun i => xorBytes (sub l (16 * i) 16) (aesBlock keys (iv ++ beBytes 4 (i + 2))))

/-- The authentication tag of a ciphertext under a 12-byte IV. -/
def gcmTag (keys : List (List Byte)) (iv c : List Byte) : List Byte :=
  let h := BitVec.ofNat 128 (beNat (aesBlock keys (List.replicate 16 0)))
  xorBytes (beBytes 16 (ghash h c).toNat) (aesBlock keys (iv ++ beBytes 4 1))

/-- AES-256-GCM encryption without additional data: ciphertext and tag (R473). -/
def gcmEncrypt (key : BitVec 256) (iv plain : List Byte) : List Byte × List Byte :=
  let keys := aesKeys (beBytes 32 key.toNat)
  let c := gcmCtr keys iv plain
  (c, gcmTag keys iv c)

/-- AES-256-GCM decryption: the plaintext where the tag verifies (R473). -/
def gcmDecrypt (key : BitVec 256) (iv cipher tag : List Byte) : Option (List Byte) :=
  let keys := aesKeys (beBytes 32 key.toNat)
  if gcmTag keys iv cipher = tag then some (gcmCtr keys iv cipher) else none

end Sys2Proof.Machine
end

