-- ==== Sys2Proof/Machine/Secure.lean ====
section
/-! DEFINITION. The identity key, attestation reports, sessions and the measurement register (R470 to R473). -/

namespace Sys2Proof.Machine

/-- IDENTITY_KEY_READY: BOOT_IDPUB holds the public key (R470). -/
def execIdentityKeyReady (s : State) : Host.Outcome State Fault Refusal :=
  let key := publicKey (identityScalar (s.otpBytes 0x300 48))
  done (if s.boot.phase ≠ 0 ∨ s.bit F.BOOT_STATUS_IDPUB_VALID then s
    else
      ((List.range 24).foldl (fun s i => s.wr .BOOT_IDPUB (BitVec.ofNat 32 (leField key (4 * i) 4)) i) s).setFld F.BOOT_STATUS_IDPUB_VALID 1)

/-- A list of bytes cut or filled with zeros to `n`. -/
def fitBytes (n : Nat) (l : List Byte) : List Byte := (List.range n).map (fun i => l.getD i 0)

/-- Whether a range lies in the activation store and is served. (DESIGN CHOICE, log entry 130.) -/
def State.attRange (s : State) (a n : Nat) : Bool := storeOf a == some 1 && s.servedBytes a n

/-- The first 0x160 bytes of a report (R471). -/
def State.reportBody (s : State) (session : Bool) (nonce eph : List Byte) : List Byte :=
  leBytes 4 0x52545441 ++ leBytes 2 1 ++ leBytes 2 ((if session then 1 else 0) + (if s.otpConfig 0 then 2 else 0)) ++ s.otpBytes 0 16 ++
    [BitVec.ofNat 8 s.chip, BitVec.ofNat 8 (s.fld F.BOOT_STATUS_SRC), BitVec.ofNat 8 (s.fld F.BOOT_STATUS_SLOT), 0] ++
    leBytes 4 (s.rd .BOOT_GEN).toNat ++ leBytes 4 (s.fld F.BOOT_SVN_SVN) ++ leBytes 2 (s.svnCounter false) ++ leBytes 2 (s.svnCounter true) ++
    leBytes 4 (s.rd .SYS_WARMS).toNat ++ fitBytes 4 [] ++ leBytes 8 s.nt ++ fitBytes 8 [] ++ fitBytes 32 nonce ++ fitBytes 48 s.boot.digest ++
    beBytes 48 s.boot.measurement.toNat ++ fitBytes 96 eph ++ fitBytes 64 []

/-- REPORT and REPORT_SESSION (R471, R473). (DEDUCED, log entry 131.) -/
def State.attReport (s : State) (session : Bool) (src dst : Nat) : AttJob × State :=
  let n := if session then 128 else 32
  if !s.attRange src n then ({ code := 0x05, addr := src }, s)
  else if !s.attRange dst 448 then ({ code := 0x05, addr := dst }, s)
  else
    let ((req, _), s) := s.netRead (.sys 3 0) src n
    let nonce := req.take 32
    let (g, s) := if session then s.draw else (0, s)
    let d := Config.ephemeralScalar g % (n384 - 1) + 1
    let body := s.reportBody session nonce (if session then publicKey d else [])
    let sig := ecdsaSign (identityScalar (s.otpBytes 0x300 48)) body
    ({ code := 0, dst := dst, out := body ++ sig
       key := if session then some (sessionKey d (req.drop 32) nonce) else none }, s)

/-- GCM_ENCRYPT and GCM_DECRYPT of `n` bytes (R473). (DESIGN CHOICE, log entry 130.) -/
def State.attGcm (s : State) (decrypt : Bool) (src dst n : Nat) : AttJob × State :=
  match s.boot.session with
  | none => ({ code := 0x04 }, s)
  | some key =>
    let (inLen, outLen) := if decrypt then (n + 28, n) else (n, n + 28)
    if n < 16 ∨ 4096 < n ∨ n % 16 ≠ 0 then ({ code := 0x04 }, s)
    else if !s.attRange src inLen then ({ code := 0x05, addr := src }, s)
    else if !s.attRange dst outLen then ({ code := 0x05, addr := dst }, s)
    else
      let ((data, _), s) := s.netRead (.sys 3 0) src inLen
      if decrypt then
        if !(data.getD 0 0).getLsbD 7 then ({ code := 0x0E }, s)
        else match gcmDecrypt key (data.take 12) (sub data 12 n) (data.drop (12 + n)) with
          | some plain => ({ code := 0, dst := dst, out := fitBytes n plain }, s)
          | none => ({ code := 0x0E }, s)
      else
        let count := s.boot.gcmCount + 1
        let iv := fitBytes 4 [] ++ beBytes 8 count
        let (cipher, tag) := gcmEncrypt key iv data
        ({ code := 0, dst := dst, out := iv ++ fitBytes n cipher ++ fitBytes 16 tag }, { s with boot := { s.boot with gcmCount := count } })

/-- A write of ATT_CTRL (R471, R473): OP and LEN are set, and a GO while an operation is under way is ignored.
(DEDUCED, log entry 248.) -/
def State.writeAttCtrl (s : State) (v : Word) : State :=
  let s := (s.setFld F.ATT_CTRL_OP v.toNat).setFld F.ATT_CTRL_LEN (v.toNat / 2 ^ 16)
  if s.bit F.ATT_STATUS_BUSY ∨ !v.getLsbD 31 then s
  else
    let src := s.fld F.ATT_SRC_ADDR * 8
    let dst := s.fld F.ATT_DST_ADDR * 8
    let (job, s) := match s.fld F.ATT_CTRL_OP with
      | 0 => s.attReport false src dst
      | 1 => s.attReport true src dst
      | 2 => s.attGcm false src dst (s.fld F.ATT_CTRL_LEN)
      | _ => s.attGcm true src dst (s.fld F.ATT_CTRL_LEN)
    ({ s with boot := { s.boot with att := some job } }.setFld F.ATT_STATUS_BUSY 1).setFld F.ATT_CTRL_GO 1

/-- A write of ATT_CTRL that requests operation `op`. -/
def attValue (value : Word) (op : Word) : Word := (value &&& 0xFFFFFFFC) ||| 0x80000000 ||| op

/-- ATT_REPORT (R471). -/
def execAttReport (value : Word) (s : State) : Host.Outcome State Fault Refusal := done (s.writeAttCtrl (attValue value 0))

/-- ATT_REPORT_SESSION (R471, R473). -/
def execAttReportSession (value : Word) (s : State) : Host.Outcome State Fault Refusal := done (s.writeAttCtrl (attValue value 1))

/-- GCM_ENCRYPT (R473). -/
def execGcmEncrypt (value : Word) (s : State) : Host.Outcome State Fault Refusal := done (s.writeAttCtrl (attValue value 2))

/-- GCM_DECRYPT (R473). -/
def execGcmDecrypt (value : Word) (s : State) : Host.Outcome State Fault Refusal := done (s.writeAttCtrl (attValue value 3))

/-- ATT_DONE: the operation ends with its code, its output written and its session key in place (R471, R473).
(DEDUCED, log entry 131; DESIGN CHOICE, log entry 128.) -/
def execAttDone (s : State) : Host.Outcome State Fault Refusal :=
  done (match s.boot.att with
    | none => s
    | some j =>
      let s := { s with boot := { s.boot with att := none } }
      let s := if j.code = 0 then s.putServed (portAt j.dst) j.dst false j.out
        else s.raise { code := j.code, cls := 12, unit := 0, d0 := BitVec.ofNat 32 j.addr }
      let s := match j.key with
        | some k => { s with boot := { s.boot with session := some k, gcmCount := 0 } }.setFld F.ATT_STATUS_SESSION 1
        | none => s
      (((s.setFld F.ATT_STATUS_BUSY 0).setFld F.ATT_STATUS_CODE j.code).setFld F.ATT_CTRL_GO 0).setBit F.BOOT_EVT_ATT_DONE)

/-- A write of MEAS_CTRL: GO extends the measurement register with 48 bytes, where they are served (R472). -/
def State.writeMeasCtrl (s : State) (v : Word) : State :=
  let a := s.fld F.MEAS_SRC_ADDR * 8
  if !v.getLsbD 31 ∨ !s.servedNet a 48 then s
  else
    let ((l, _), s) := s.netRead (.sys 3 0) a 48
    { s with boot := { s.boot with measurement := sha384 (beBytes 48 s.boot.measurement.toNat ++ l) } }.setBit F.BOOT_EVT_MEAS_DONE

/-- MEASUREMENT_EXTEND (R472). (DESIGN CHOICE, log entry 132.) -/
def execMeasurementExtend (value : Word) (s : State) : Host.Outcome State Fault Refusal := done (s.writeMeasCtrl (value ||| 0x80000000))

end Sys2Proof.Machine
end

