-- ==== Sys2Proof/Machine/Reset.lean ====
section
/-! DEFINITION. Power-on reset, warm reset and the loss of the supply (R88, R94, R454 to R456, R465, R466, R499). -/

namespace Sys2Proof.Config

/-- The state of a device that its supply or clock has left (R499: undefined; log entry 29). -/
opaque lostState (gen : Nat) : Machine.State

end Sys2Proof.Config

namespace Sys2Proof.Machine

/-! ### What a reset leaves -/

/-- Every core as a reset leaves it: IDLE, its accumulators free values of a new generation, and after a warm reset its pocket
too (R98, R455); its sensor still reads the junction temperature. -/
def State.resetCores (s : State) (g : Nat) (warm : Bool) : Sparse Core :=
  (List.range 32).map (fun c => (c, { accGen := g, pocketGen := if warm then some (g + 1 + c) else none, tempReading := (s.core c).tempReading }))

/-- Loads the registers whose reset values the OTP and the straps give (R448, R456, R467). (DEDUCED, log entry 133.) -/
def State.loadFused (s : State) (straps : Nat) : State :=
  let s := (s.wr .SYS_STRAPS (BitVec.ofNat 32 (straps % 128))).setFld F.PLT_STATUS_CHIP straps
  let mac := leNat (s.otpBytes 0x10 6)
  let s := (List.range 4).foldl (fun s p =>
    (s.wr .PRT_MAC_LO (BitVec.ofNat 32 (mac + p)) p).setFld F.PRT_MAC_HI_MAC ((mac + p) / 2 ^ 32) p) s
  (s.wr .TIME_CLKID_LO (BitVec.ofNat 32 (leNat (s.otpBytes 0x18 4)))).wr .TIME_CLKID_HI (BitVec.ofNat 32 (leNat (s.otpBytes 0x1C 4)))

/-- Begins the boot: in the sideband where the straps ask for it, else with the flash slots (R456, R462). -/
def State.beginBoot (s : State) : State := { s with boot := { s.boot with phase := if s.sidebandBoot false then 2 else 1 } }

/-- Whether an address lies in the boot flash window. -/
def inFlash (a : Nat) : Bool := decide (flashBase ≤ a ∧ a < flashBase + 0x10000000)

/-- A flash erase or program that a reset interrupts leaves its bytes undefined (R464, R508). (DEDUCED, log entry 147.) -/
def State.abandonFlash (s : State) : State :=
  let spoil (a n : Nat) (s : State) : State := let (g, s) := s.draw; s.changeFlash a n (fun i _ => Config.freeByte g i)
  match s.boot.flash with
  | some (.erase a) => spoil a 0x10000 s
  | some (.program a d) => spoil a d.length s
  | none => s

/-- An OTP programming that a reset interrupts leaves each of its bits programmed or not. (DEDUCED, log entry 147.) -/
def State.abandonOtp (s : State) : State :=
  let half (w : Nat) (bits : Word) (s : State) : State := let (g, s) := s.draw; s.otpSet w (bits &&& Config.freeWord g 0)
  match s.boot.otpJob with
  | some (.program w b) => half w (b &&& otpMask w) s
  | some (.advance knot n) =>
    (List.range 16).foldl (fun s i =>
      half ((if knot then 0x280 / 4 else 0x240 / 4) + i) (BitVec.ofNat 32 (2 ^ min 32 (n - 32 * i) - 1)) s) s
  | _ => s

/-! ### Power-on reset (R88, R454 to R456) -/

/-- The device at the release of power-on reset: as after reset, with the straps latched; the flash and the OTP keep what they
hold, and the sensors read what they read. (DEDUCED, log entry 149.) -/
def State.powerOn (s : State) (straps : Nat) : State :=
  let s := s.abandonFlash.abandonOtp
  let t : State :=
    { pending := s.pending, mem := s.mem.filter (fun c => inFlash c.1), boot := { otp := s.boot.otp }
      cores := s.resetCores s.fresh false, fresh := s.fresh + 1 }
  (List.range 32).foldl State.noteTrip (t.loadFused straps).beginBoot

/-- POWER_ON_RESET (R454). (DESIGN CHOICE, log entry 5.) -/
def execPowerOnReset (straps : BitVec 7) (s : State) : Host.Outcome State Fault Refusal := done (s.powerOn straps.toNat)

/-! ### Warm reset (R94, R455) -/

/-- The band transitions in progress complete before a warm reset takes effect (R94). -/
def State.finishBands (s : State) : State :=
  s.stores.bandMoves.foldl (fun s m => s.finishBand (m.1 / 8) (m.1 % 8)) s

/-- The knot table through a warm reset (R270): a LOADING knot is LIBRARY, a VERIFYING one RESIDENT, BOUND becomes 0. -/
def State.warmKnots (s : State) : State :=
  (List.range 10240).foldl (fun s k =>
    if s.kword k 0 = 0 then s
    else s.setKnot k (if s.kstate k = 2 then 1 else if s.kstate k = 4 then 3 else s.kstate k) 0) s

/-- The registers a warm reset keeps (R94, R455), as register and instance. -/
def warmRegs : List (RegId × Nat) :=
  [(.SYS_STRAPS, 0), (.SYS_CAUSE, 0), (.SYS_WARMS, 0), (.SYS_SCRATCH, 0), (.SYS_SCRATCH, 1), (.SYS_SCRATCH, 2), (.SYS_SCRATCH, 3),
   (.BOOT_NEXT, 0), (.STO_BAND, 0), (.STO_BAND, 1), (.STO_BAND, 2), (.STO_BAND, 3), (.STO_BAND, 4)]

/-- The device after a warm reset of cause `cause`, a bit of SYS_CAUSE: every unit in its power-on state but for what R455
keeps. (DEDUCED, log entry 148.) -/
def State.warmReset (s : State) (cause : Nat) : State :=
  let s := s.finishBands.abandonFlash.abandonOtp.warmKnots
  let t : State :=
    { pending := s.pending, time := s.time, mem := s.mem, poison := s.poison, flips := s.flips
      stores := { wheel := s.stores.wheel }, cores := s.resetCores s.fresh true, kn := { table := s.kn.table }
      fab := { rail := s.fab.rail, accepted := s.fab.accepted }, boot := { otp := s.boot.otp }
      fresh := s.fresh + 33, thermTrip := s.thermTrip }
  let t := warmRegs.foldl (fun t r => t.wr r.1 (s.rd r.1 r.2) r.2) t
  let t := t.setFld F.STO_STATUS_INIT_DONE (s.fld F.STO_STATUS_INIT_DONE)
  let t := (t.wr .SYS_CAUSE (t.rd .SYS_CAUSE ||| BitVec.ofNat 32 (2 ^ cause))).addSat F.SYS_WARMS_COUNT
  ((List.range 5).foldl State.startBands (t.loadFused (s.rd .SYS_STRAPS).toNat)).beginBoot

/-- WARM_RESET: the WRST_N ball (R454). -/
def execWarmReset (s : State) : Host.Outcome State Fault Refusal := done (s.warmReset 1)

/-- A write of SYS_RST: a warm reset with WARM set and KEY 0xA5 (R454). -/
def State.writeSysRst (s : State) (v : Word) : State :=
  if v.getLsbD 0 ∧ F.SYS_RST_KEY.get v = 0xA5 then s.warmReset 2 else s

/-- SOFTWARE_WARM_RESET (R454). -/
def execSoftwareWarmReset (value : Word) (s : State) : Host.Outcome State Fault Refusal := done (s.writeSysRst value)

/-- JTAG_RESET (R454): with CONFIG.SECURE set the JTAG port takes no instruction but IDCODE, BYPASS and boundary scan (R469). -/
def execJtagReset (s : State) : Host.Outcome State Fault Refusal := done (if s.otpConfig 0 then s else s.warmReset 3)

/-! ### Loss of the supply (R495, R499) -/

/-- The device after its supply or clock has left tolerance: every state of its own is a free value; the flash and the OTP are
no state of the supplied domains. (DESIGN CHOICE, log entry 29.) -/
def State.lose (s : State) : State :=
  let (g, s) := s.draw
  let l := Config.lostState g
  let mem := l.mem.foldl (fun m c => if inFlash c.1 then m else Sparse.set m c.1 (unlisted c.1) c.2) (s.mem.filter (fun c => inFlash c.1))
  { l with pending := s.pending, mem := mem, boot := { l.boot with otp := s.boot.otp }, raised := [], fresh := s.fresh }

/-- SUPPLY_FAULT (R499). (DESIGN CHOICE, log entry 29.) -/
def execSupplyFault (s : State) : Host.Outcome State Fault Refusal := done s.lose

end Sys2Proof.Machine
end

