-- ==== Sys2Proof/Machine/RegWrite.lean ====
section
/-! DEFINITION. Accesses to the control registers (R4 to R9, R447): where an address leads, what a read answers, what a write
does, and the commands that reach registers by address: REGISTER_WRITE and the management transactions (R384). -/

namespace Sys2Proof.Machine

/-! ### Where an offset leads (R447) -/

/-- The instance of a register that lies at a byte offset from 0x0F_0000_0000. -/
def RegId.place (r : RegId) (ofs : Nat) : Option (Nat × Nat) :=
  let w := r.row
  let d := ofs - w.base
  let i := if w.n0 = 1 then 0 else d / w.s0
  let j := if w.n1 = 1 then 0 else (d - i * w.s0) / w.s1
  if w.base ≤ ofs ∧ i < w.n0 ∧ j < w.n1 ∧ d = i * w.s0 + j * w.s1 then some (i, j) else none

/-- Registers whose tables begin at instance 1: the layers L1 to L7, their underrun counters, and the counters of the fault
codes from 0x01 (R362, R491). -/
def RegId.fromOne (r : RegId) : Bool := layerRegs.contains r || r == .UNDER_CNT || r == .FLT_CNT

/-- The register instance at an offset; none where the block's tables name no register there. -/
def regAt (ofs : Nat) : Option (RegId × Nat × Nat) :=
  (regsOfBlock (ofs / 65536)).findSome? (fun r => match r.place ofs with
    | some (i, j) => if i = 0 ∧ r.fromOne then none else some (r, i, j)
    | none => none)

/-- Whether a register access is served: one whole word in a listed 64 KB block (R4, R447). -/
def regServed (ofs : Nat) : Bool := decide (ofs % 4 = 0) && !(regsOfBlock (ofs / 65536)).isEmpty

/-- The instance an access to a register behind a selector reaches: the bind slot, lease entry or window selected (R295, R393). -/
def State.selected (s : State) (r : RegId) (i : Nat) : Nat :=
  match r with
  | .BIND_KNOT | .BIND_TARGET | .BIND_CORES | .BIND_GEOM | .BIND_STATUS => s.selSlot
  | .LSE_ADDR_LO | .LSE_ADDR_HI => s.fld F.LSE_SEL_INDEX
  | .WIN_BASE_LO | .WIN_BASE_HI | .WIN_SIZE | .WIN_PEERS | .WIN_STATUS | .WIN_CLOSED_CNT | .WIN_DENIED_CNT | .WIN_OVERRUN_CNT =>
    s.fld F.WIN_SEL_WIN
  | _ => i

/-! ### Reads (R5) -/

/-- A field of a register word, from a flag. -/
def RegField.flag (f : RegField) (v : Word) (b : Bool) : Word := f.ins v (if b then 1 else 0)

/-- Whether an engine waits on an instruction of opcode `op`. -/
def Engine.waitsOn (x : Engine) (op : BitVec 8) : Bool :=
  match x.wait with
  | .blocked o _ => o == op
  | _ => false

/-- What the core registers present (R126, R226). -/
def State.readCore (s : State) (r : RegId) (c j : Nat) : Word :=
  let k := s.core c
  let runs := k.state == 2
  match r with
  | .CORE_STATE =>
    let v := F.CORE_STATE_CAUSE.ins (F.CORE_STATE_STATE.ins 0 k.state) k.cause
    F.CORE_STATE_EXEC_BLOCKED.flag (F.CORE_STATE_FETCH_BLOCKED.flag v (runs && k.fetch.wait != .none)) (runs && k.exec.wait != .none)
  | .CORE_PC => F.CORE_PC_EXEC_PC.ins (F.CORE_PC_FETCH_PC.ins 0 k.fetch.pc) k.exec.pc
  | .CHAIN_STATUS =>
    let m := s.bit F.CHAIN_CFG_MEMBER c
    let v := F.CHAIN_STATUS_SKID.ins 0 k.skid.length
    let v := F.CHAIN_STATUS_HEAD.flag v (m && !s.bit F.CHAIN_CFG_PRED_VALID c)
    let v := F.CHAIN_STATUS_TAIL.flag v (m && !s.bit F.CHAIN_CFG_NEXT_VALID c)
    F.CHAIN_STATUS_RECV_WAIT.flag (F.CHAIN_STATUS_SEND_WAIT.flag v (runs && k.fetch.waitsOn 0x58)) (runs && k.fetch.waitsOn 0x59)
  | .QOCC =>
    let q := k.queue j
    if j = 0 then F.QOCC_ENTRIES.ins (F.QOCC_WORDS.ins 0 k.tileWords) k.tiles.length
    else F.QOCC_DIR.flag (F.QOCC_ENTRIES.ins (F.QOCC_WORDS.ins 0 (q.entries.map (fun e => e.words.length)).sum) q.entries.length) q.outbound
  | .STR_STATE =>
    let t := k.stream j
    match t.cur with
    | some a =>
      let v := F.STR_STATE_MODE.ins (F.STR_STATE_QUEUE.ins (F.STR_STATE_STATE.ins 0 (if t.shadow.isSome then 2 else 1)) a.q) a.mode
      F.STR_STATE_POISONED.flag v a.tainted
    | none => F.STR_STATE_STATE.ins 0 (if t.shadow.isSome then 3 else 0)
  | .STR_LEFT => BitVec.ofNat 32 (match (k.stream j).cur with
    | some a => (k.stream j).left a
    | none => 0)
  | .SLOT_TAINT => F.SLOT_TAINT_OUT.ins (F.SLOT_TAINT_IN.ins 0 k.taintIn.toNat) k.taintOut.toNat
  | _ => s.rd r c j

/-- What an interrupt configuration register presents beside its priority (R451). -/
def State.readIrqCfg (s : State) (v : Word) (level : Bool) (key : Nat) : Word :=
  let serving := s.inService key
  let v := F.IRQ_CFG_INSERV.flag (F.IRQ_CFG_PENDING.flag (F.IRQ_CFG_LEVEL.flag v level) (level && !serving)) serving
  if key < 256 then F.IRQ_CFG_SERVER.ins v (if serving then s.irq.inService.look key 0 else 0) else v

/-- The value last written to a register whose writes wait: the newest write that waits, or the value in force (R5). -/
def State.lastWritten (s : State) (r : RegId) (i j : Nat) : Word :=
  (s.boundaryShadow ++ s.epochShadow).foldl (fun v w => if w.reg = r ∧ w.i = i ∧ w.j = j then w.value else v) (s.rd r i j)

/-- What a register presents that the device works out as it is read (R5, type RO); any other register, its stored value.
(DEDUCED, log entry 193; DESIGN CHOICE, log entry 211.) -/
def State.present (s : State) (r : RegId) (i j : Nat) : Word :=
  match r with
  | .CORE_STATE | .CORE_PC | .CHAIN_STATUS | .QOCC | .STR_STATE | .STR_LEFT | .SLOT_TAINT => s.readCore r i j
  | .FAB_STATUS =>
    F.FAB_STATUS_CONFLICT.flag (F.FAB_STATUS_AT_LIMIT.flag (s.rd r) (s.fab.rail.isSome && decide (s.railLimits.2 ≤ s.railNow))) s.railConflict
  | .BELAY_STATE => F.BELAY_STATE_VLOW.ins (s.rd r) (lowBits 10 s.vLow)
  | .EFF_SLACK => match (s.pics.look i {}).plan with
    | some p => F.EFF_SLACK_FLOOR.ins (F.EFF_SLACK_TARGET.ins 0 (s.effTarget p.window)) (s.effFloor p.window)
    | none => 0
  | .CAL_EV => F.CAL_EV_VF105.ins (F.CAL_EV_VF25.ins 0 (lowBits 10 (s.effVf25 i))) (lowBits 10 (s.effVf105 i))
  | .CAL_EGT => F.CAL_EGT_TEMP.ins (F.CAL_EGT_GAIN.ins 0 (lowBits 16 (s.effGain i))) (lowBits 12 (s.effTemp i))
  | .STO_WHEEL => F.STO_WHEEL_PHASE.ins 0 (s.stores.wheel.look i 0 % octets i)
  | .KNT_STATUS =>
    F.KNT_STATUS_VERIFY_BUSY.flag (F.KNT_STATUS_BIND_BUSY.flag (s.rd r) ((List.range 32).any (fun k => s.slotState k == 1)))
      s.kn.ver.isSome
  | .EPOCH_STREAMS => F.EPOCH_STREAMS_REBOUND.ins (s.rd r) (unitMask s.epochUnits)
  | .KNT_ENTRY => s.kword s.windowKnot i
  | .MOT_STATUS =>
    let m := s.motOf i
    let v := F.MOT_STATUS_VALID.ins (s.rd r i) (((List.range 4).filter (fun k => (m.bufs.look k {}).valid)).map (fun k => 2 ^ k)).sum
    F.MOT_STATUS_WACTIVE.flag (F.MOT_STATUS_WIDX.ins v (m.writing.getD 0)) m.writing.isSome
  | .SRC_STATUS => F.SRC_STATUS_DSC.flag (F.SRC_STATUS_ENCRYPTING.flag (s.rd r i) (s.encrypting i)) (s.frc F.SRC_DSC_EN i == 1)
  | .TMG_STATUS => F.TMG_STATUS_LINE.ins (s.rd r i) (if s.running i then s.rasterLine i else 0)
  | .KEP_STATE =>
    let k := s.keeper i
    let waiting := match k.eng.wait with
      | .irq _ _ => k.state == 1
      | _ => false
    F.KEP_STATE_PC.ins (F.KEP_STATE_WAITING.flag (F.KEP_STATE_STATE.ins 0 k.state) waiting) k.eng.pc
  | .IRQ_CFG => s.readIrqCfg (s.rd r i) (s.level i) i
  | .IRQ_PCFG => s.readIrqCfg (s.rd r i j) (s.privateLevel i j) (serviceKey i (256 + j))
  | .EVT_STATUS => F.EVT_STATUS_OUTSTANDING.ins 0 s.outstanding
  | .OTP_SVN => F.OTP_SVN_KNOT.ins (F.OTP_SVN_FW.ins 0 (s.svnCounter false)) (s.svnCounter true)
  | .TIME_US => BitVec.ofNat 32 (s.nt / 1000)
  | .TIME_STATUS => match s.slavePort with
    | some p => F.TIME_STATUS_SLAVE_VALID.ins (F.TIME_STATUS_SLAVE_PORT.ins (s.rd r) p) 1
    | none => s.rd r
  | .FLT_REC => s.faultWord i
  | .FLT_STATUS => F.FLT_STATUS_COUNT.ins 0 s.log.length
  | .TST_INJ_CTRL => F.TST_INJ_CTRL_ARMED.flag (s.rd r) s.tst.injection.isSome
  | .ER_BASE | .ER_CFG | .ER_SLOT_STRIDE | .ER_PLANE_STRIDE | .ER_COUNT | .ER_CSTRIDE | .ER_CSKEIN => s.lastWritten r i j
  | _ => s.rd r (s.selected r i) j

/-- A read of a register instance, with what the read does (R5, types RC and RO): none where the read of IRQ_WAIT is held. -/
def State.readReg (s : State) (r : RegId) (i j : Nat) : Option Word × State :=
  let some_ (x : Word × State) : Option Word × State := (some x.1, x.2)
  match r with
  | .IRQ_CLAIM => some_ (s.readClaim i)
  | .IRQ_WAIT => if s.waitAnswers i then some_ (s.readClaim i) else (none, s)
  | .RPT_SEQ => some_ (s.readRptSeq i)
  | .DIGEST_LO => some_ (s.readDigestLo i)
  | .TIME_NOW_LO => some_ s.readTimeNow
  | .LUT_DATA =>
    let t := s.lutAccess none
    (some t.readData, { t with readData := s.readData })
  | _ => (some (s.present r i j), s)

/-- A read at an offset in a listed block: an offset that the tables do not name reads zero (R447). -/
def State.regRead (s : State) (ofs : Nat) : Option Word × State :=
  match regAt ofs with
  | some (r, i, j) => s.readReg r i j
  | none => (some 0, s)

/-! ### Writes (R5, R6, R9) -/

/-- Registers whose writes wait for an epoch or a frame boundary: the RW registers of the input paths, the re-timing units and
the tensor rings (R286, R319, R347). -/
def shadowRegs : List RegId :=
  [.INP_CTRL, .INP_MAT, .INP_OFS, .INP_SUBST0, .INP_SUBST1, .INP_RING_BASE, .INP_RING_CFG, .INP_SLOT_STRIDE, .INP_PLANE_STRIDE,
    .INP_COUNT_BASE, .INP_COUNT_STRIDE, .INP_REC, .INP_MAP_A, .INP_MAP_B, .INP_BYP, .INP_IEN,
    .MOT_CTRL, .MOT_HOLD, .MOT_REF_LO, .MOT_REF_HI, .MOT_REF_STRIDE, .MOT_PYR_BASE, .MOT_PYR_STRIDE, .MOT_IEN,
    .ER_BASE, .ER_CFG, .ER_SLOT_STRIDE, .ER_PLANE_STRIDE, .ER_COUNT, .ER_CSTRIDE, .ER_CSKEIN]

/-- A write that waits: in the epoch's shadow while an epoch is OPEN or COMMITTED, else for the next frame boundary of the
path's output (R319); a write for the boundary replaces what an aborted epoch left in the shadow of its register.
(DEDUCED, log entry 191.) -/
def State.writeShadow (s : State) (r : RegId) (v : Word) (i j : Nat) : State :=
  let w : ShadowWrite := { reg := r, i := i, j := j, value := plainValue r.row (s.rd r i j) v }
  if s.epochState = 1 ∨ s.epochState = 2 then { s with epochShadow := s.epochShadow ++ [w] }
  else { s with epochShadow := s.epochShadow.filter (fun o => !(o.reg == r && o.i == i && o.j == j)), boundaryShadow := s.boundaryShadow ++ [w] }

/-- The display-shadowed registers (R347). -/
def displayRegs : List RegId :=
  layerRegs ++ [.CMP_BG0, .CMP_BG1, .CMP_TKO_BG0, .CMP_TKO_BG1, .CMP_TKO_POS, .SMAT_C, .SMAT_POST0, .SMAT_POST1, .SRC_FMT, .SRC_DSC,
    .SRC_VSC, .SRC_IEN, .SRC_MAT, .SRC_PRE0, .SRC_PRE1, .SRC_POST0, .SRC_POST1, .LUT_CTRL, .CV_CTRL]

/-- Registers that are not written while a condition holds: the others of their kind are plain writes. -/
def State.writeHeld (s : State) (held : Bool) (r : RegId) (v : Word) (i : Nat := 0) (j : Nat := 0) : State :=
  if held then s else s.plainWrite r v i j

/-- A write of PLT_CTRL: with a chip ID of 12 or more, EN = 1 is ineffective (R448). -/
def State.writePltCtrl (s : State) (v : Word) : State :=
  s.plainWrite .PLT_CTRL (if 12 ≤ s.chip then v &&& 0xFFFFFFFE else v)

/-- A write of a core's register (R109, R110, R160, R216, R223). -/
def State.writeCoreReg (s : State) (r : RegId) (v : Word) (c j : Nat) : State :=
  match r with
  | .CORE_CTRL => s.writeCoreCtrl c v
  | .CORE_BIND => s.writeCoreBind c v
  | .QPRI => s.writeCoreCfg c false v
  | .CHAIN_CFG => s.writeCoreCfg c true v
  | .PKT_INDEX => s.writePktIndex c v
  | .PKT_DATA_LO => s.updCore c (fun k => { k with pktLow := v })
  | .PKT_DATA_HI => s.writePktHi c v
  | .PKT_LOAD => s.writePktLoad c v
  | .RING_LO => s.writeRing c j 0 v
  | .RING_HI => s.writeRing c j 1 v
  | .RING_STRIDE => s.writeRing c j 2 v
  | .RING_CUT => s.writeRingCut c v
  | _ => s.plainWrite r v c j

/-- A write of a register of chapters 02, 03 and 10: fabric, stores and knots. -/
def State.writeFabricReg (s : State) (r : RegId) (v : Word) (i j : Nat) : State :=
  match r with
  | .FAB_CTRL => s.writeFabCtrl v
  | .BELAY_VLIM => (s.plainWrite r v).noteVlow
  | .CUM_CLEAR => s.writeCumClear i v
  | .STRIPE_SHADOW => s.writeStripeShadow i j v
  | .CAL_USER => s.writeCalUser i v
  | .CAL_CTRL => s.writeCalCtrl v
  | .CAL_CLAMP => s.writeCalClamp v
  | .AVS_TARGET => s.writeAvsTarget v
  | .PMB_XFER => s.writePmb v
  | .STO_CTRL => s.writeStoCtrl v
  | .STO_BAND => s.writeBand i v
  | .KNT_ENTRY => if i = 0 then s.writeKnotState v else s
  | .BIND_CTRL => s.writeBindCtrl v
  | .BIND_KNOT | .BIND_TARGET | .BIND_CORES | .BIND_GEOM => s.writeBindReq r v
  | .VER_CTRL => s.writeVerCtrl v
  | .IMP_CTRL => s.writeImpCtrl v
  | .EPOCH_CORES => s.writeEpochCores v
  | .HYP_CTRL => s.writeHypCtrl v
  | .HYP_CFG | .HYP_TIMING => s.writeHeld (s.bit F.HYP_CTRL_EN) r v
  | _ => s.plainWrite r v (s.selected r i) j

/-- A write of a register of chapters 15, 16 and 17 by keeper `k`: keepers, interrupts, boot and self-test.  The level of VPP_OTP
is not the device's to know here (R502): it is a free value. -/
def State.writeSysReg (s : State) (k : Nat) (r : RegId) (v : Word) (i j : Nat) : State :=
  match r with
  | .KEP_CTRL => s.writeKepCtrl v
  | .KEP_RING => s.writeKepRing v
  | .KEP_WDOG => s.writeKepWdog i v
  | .MBX_CTRL => s.writeMbxCtrl v
  | .MBX_STATUS => s.writeMbxStatus v
  | .MBX_D2H => s.writeD2h i v
  | .IRQ_SOFTSET_LO => s.wr .IRQ_SOFT_LO (s.rd .IRQ_SOFT_LO ||| v)
  | .IRQ_SOFTSET_HI => s.wr .IRQ_SOFT_HI (s.rd .IRQ_SOFT_HI ||| v)
  | .IRQ_COMPLETE => s.writeComplete i v
  | .EVT_CTRL => s.writeEvtCtrl v
  | .OTP_CMD => let (g, s) := s.draw; s.writeOtpCmd v (Config.freeBit g 0)
  | .SVN_ADV => let (g, s) := s.draw; s.writeSvnAdv v (Config.freeBit g 0)
  | .XSPI_CMD => s.writeXspiCmd k v
  | .ATT_CTRL => s.writeAttCtrl v
  | .MEAS_CTRL => s.writeMeasCtrl v
  | .SYS_RST => s.writeSysRst v
  | .TST_AUDIT_REQ => s.writeAuditReq v
  | .TST_INJ_CTRL => s.writeInjCtrl v
  | .FLT_POP => s.popFault
  | _ => s.plainWrite r v i j

/-- A write of a register of chapters 11 to 14: pictures, network and time. -/
def State.writePathReg (s : State) (r : RegId) (v : Word) (i j : Nat) : State :=
  match r with
  | .SNK_CTRL => s.writeSnkCtrl i v
  | .CMP_COMMIT => s.writeCommit v
  | .LUT_DATA => s.lutAccess (some v)
  | .CV_LOAD => s.writeCvLoad v
  | .TMG_CTRL => s.writeTmgCtrl i v
  | .SRC_CTRL => s.writeSrcCtrl i v
  | .PRT_CTRL => s.writePrtCtrl i v
  | .PRT_FI_CTRL => s.writeFiCtrl i v
  | .PLT_CTRL => s.writePltCtrl v
  | .WIN_CTRL => s.writeWinCtrl v
  | .WIN_BASE_LO | .WIN_BASE_HI | .WIN_SIZE | .WIN_PEERS => s.writeWindow r v
  | .DMA_CTRL => s.writeDmaCtrl i v
  | .TIME_STEP_HI => s.writeTimeStep v
  | .TIME_RATE => if s.grandmaster then s.setRate v.toInt else s
  | .ANN_CTRL => s.writeAnnCtrl v
  | .ANN_LOST => s.writeAnnLost v
  | _ => if displayRegs.contains r then s.writeDisplay r v i j else s.plainWrite r v i j

/-- A write of a register instance (R5), by keeper `k` where a keeper writes it: every register to the rules of its chapter. -/
def State.writeReg (s : State) (k : Nat) (r : RegId) (v : Word) (i j : Nat) : State :=
  let block := r.row.base / 65536
  if shadowRegs.contains r then s.writeShadow r v i j
  else if 1 ≤ block ∧ block ≤ 7 then s.writeFabricReg r v i j
  else if block = 0x10 then s.writeCoreReg r v i j
  else if block ≤ 0xB ∨ block = 0x46 then s.writeSysReg k r v i j
  else s.writePathReg r v i j

/-- A write at an offset in a listed block: an offset that the tables do not name ignores it (R447). -/
def State.regWrite (s : State) (k : Nat) (ofs : Nat) (v : Word) : State :=
  match regAt ofs with
  | some (r, i, j) => s.writeReg k r v i j
  | none => s

/-! ### REGISTER_WRITE (R4, R5) -/

/-- REGISTER_WRITE: keeper `k` writes a register; an access that is no whole word, or in no listed block, is refused with
ADDR_RANGE, which is the keeper's instruction fault (R4, R426). (DEDUCED, log entry 196.) -/
def execRegisterWrite (k : Fin 4) (addr : Addr) (bytes : Nat) (value : Word) (s : State) : Host.Outcome State Fault Refusal :=
  let a := addr.toNat
  done (if ctrlBase ≤ a ∧ bytes = 4 ∧ regServed (a - ctrlBase) then s.regWrite k (a - ctrlBase) value
    else if (s.keeper k).state = 1 then s.addrFault (.keeper k) a
    else s.raise { code := codeAddrRange, cls := 1, unit := k, d0 := BitVec.ofNat 32 a, d1 := BitVec.ofNat 32 (a / 2 ^ 32)
                   d2 := BitVec.ofNat 32 (s.keeper k).eng.pc })

/-! ### Management transactions (R384) -/

/-- Whether a management transaction's origin may make it: the host or a chip, by its bit of PLT_MGMT.
(DEDUCED, log entry 184.) -/
def State.mayManage (s : State) (f : Frame) : Bool :=
  (f.hostSrc || decide (f.src.toNat ≤ 11)) && (s.fld F.PLT_MGMT_PEERS).testBit (originBit f)

/-- Reads `n` registers in ascending order; answers the words, whether one was refused, and whether a read of IRQ_WAIT is held
(R384, R435). -/
def State.mgmtRead (s : State) (ofs : Nat) : Nat → (List Word × Bool × Bool) × State
  | 0 => (([], false, false), s)
  | n + 1 =>
    if !regServed ofs then (([], true, false), s)
    else match s.regRead ofs with
      | (some v, s) =>
        let ((l, bad, held), s) := State.mgmtRead s (ofs + 4) n
        ((v :: l, bad, held), s)
      | (none, s) => (([], false, true), s)

/-- Writes registers in ascending order; answers whether one was refused. -/
def State.mgmtWrite (s : State) (ofs : Nat) : List Word → Bool × State
  | [] => (false, s)
  | v :: l => if !regServed ofs then (true, s) else State.mgmtWrite (s.regWrite 0 ofs v) (ofs + 4) l

/-- Goes on with an MGMT_RD `f` at the head of port `p`'s requests, of which the words `l` are read: it is answered, or waits at the
head with what it has read (R384, R435). -/
def State.mgmtGoOn (s : State) (p : Nat) (f : Frame) (l : List Word) : State :=
  let ((m, bad, held), s) := s.mgmtRead (f.offset.toNat + 4 * l.length) (f.aux.toNat - l.length)
  if held then s.updPort p (fun k => { k with delivered := f :: k.delivered, mgmt := some (l ++ m, s.time) })
  else if bad then s.answer f 0x05 [] false
  else s.answer f 0 (bytesOfWords (l ++ m)) false

/-- MGMT_RD: a read of IRQ_WAIT in it with nothing to claim is held, and with it the transaction, until a source is claimable or a
tick has come (R384, R435). (DEDUCED, log entry 185; DESIGN CHOICE, log entry 186.) -/
def execMgmtRd (p : Fin 4) (s : State) : Host.Outcome State Fault Refusal :=
  done (match s.takeHead p (· == 6) with
    | none => s
    | some (f, t) =>
      let n := f.aux.toNat
      match (s.port p).mgmt with
      | some (l, c) =>
        let t := t.updPort p (fun k => { k with mgmt := none })
        match t.regRead (f.offset.toNat + 4 * l.length) with
        | (some v, t) => t.mgmtGoOn p f (l ++ [v])
        | (none, t) => if s.tickSince c then t.mgmtGoOn p f (l ++ [1023]) else s
      | none =>
        if !t.mayManage f then t.answer f 0x07 [] false
        else if n = 0 ∨ 64 < n then t.answer f 0x05 [] false
        else t.mgmtGoOn p f [])

/-- MGMT_WR (R384). (DESIGN CHOICE, log entries 186 and 187.) -/
def execMgmtWr (p : Fin 4) (s : State) : Host.Outcome State Fault Refusal :=
  done (match s.takeHead p (· == 7) with
    | none => s
    | some (f, s) =>
      let n := f.data.length
      if !s.mayManage f then s.answer f 0x07 [] false
      else if n = 0 ∨ 256 < n ∨ n % 4 ≠ 0 then s.answer f 0x05 [] false
      else
        let (bad, s) := s.mgmtWrite f.offset.toNat (wordsOfBytes f.data)
        s.answer f (if bad then 0x05 else 0) [] false)

end Sys2Proof.Machine
end

