-- ==== Sys2Proof/Machine/MemInstr.lean ====
section
/-! DEFINITION. The scalar accesses LD, ST, DLD and DST (R142 to R144), the forwarding buffer (R134, R135), and the accesses of
keepers outside the stores (R143). -/

namespace Sys2Proof.Machine

/-! ### Where an access is served (R66, R68, R90, R143, R445, R447) -/

/-- Whether a compute core's access of `n` words is served: in the four stores it has a port on. -/
def State.coreServed (s : State) (a n : Nat) : Bool := s.storeOk a n && storeOf a != some 3

/-- Whether a word address lies in HyperRAM that answers, or, for a read, in the boot flash window.
(DEDUCED, log entry 198.) -/
def State.offChip (s : State) (a : Nat) (write : Bool) : Bool := decide (a % 4 = 0) && (s.inHyper a 4 || !write && inFlash a)

/-- Whether an address lies in a listed block of control registers, as a whole word. -/
def regAddr (a : Nat) : Bool := decide (ctrlBase ≤ a) && regServed (a - ctrlBase)

/-! ### Loads -/

/-- The descriptor in eight words, the first in bits [31:0] (R148). -/
def descOfWords (l : List Word) : BitVec 256 :=
  let w (i : Nat) : Word := l.getD i 0
  w 7 ++ w 6 ++ w 5 ++ w 4 ++ w 3 ++ w 2 ++ w 1 ++ w 0

/-- Writes a loaded value to the destination of an LD or a DLD. -/
def Engine.wload (x : Engine) (wide : Bool) (r : Nat) (v : BitVec 256) : Engine :=
  if wide then x.wdesc r v else x.ws r (v.setWidth 32)

/-- The opcode of a load. -/
def loadOp (wide : Bool) : BitVec 8 := if wide then 0x2A else 0x28

/-- An execute engine takes the oldest forwarding entry (R135). -/
def takeForwarded (wide : Bool) (e : EngId) (c : Nat) (b : KBits) (s : State) : State :=
  match (s.core c).fwd with
  | [] => s.block e (loadOp wide) b
  | f :: r =>
    if f.pc ≠ (s.eng e).pc then s.instrFault e codeIllegal
    else ((s.updCore c (fun k => { k with fwd := r })).updEng e (fun x => x.wload wide (b.f 49 45) f.value)).retire e

/-- A fetch engine's load ends with the value it has read: with ENGINE 0b00 it places an entry in the forwarding buffer, and waits
with its value while that is full (R107, R135). (DEDUCED, log entry 169.) -/
def placeLoaded (wide : Bool) (e : EngId) (c : Nat) (b : KBits) (v : BitVec 256) (s : State) : State :=
  if b.engine = 0 ∧ 16 ≤ (s.core c).fwd.length then (s.block e (loadOp wide) b).updEng e (fun x => { x with loaded := some v })
  else
    let s := s.updEng e (fun x => x.wload wide (b.f 49 45) v)
    let s := if b.engine = 0 then s.updCore c (fun k => { k with fwd := k.fwd ++ [{ pc := (s.eng e).pc, value := v }] }) else s
    s.retire e

/-- A fetch engine's load (R142): its access, made again after a HALT while it waited (R107), and then its forwarding entry. -/
def loadFetch (wide : Bool) (e : EngId) (c : Nat) (b : KBits) (s : State) : State :=
  let n := if wide then 8 else 1
  let a := mmAddr (s.eng e) b
  match (s.eng e).loaded with
  | some v => placeLoaded wide e c b v s
  | none =>
    if !s.coreServed a n then s.addrFault e a
    else if !s.opens a then s.block e (loadOp wide) b
    else
      let ((ws, p), s) := (s.turnFor (requester e) a).getWords (portOf e a) a n
      let v := descOfWords ws
      if p then (s.updEng e (fun x => x.wload wide (b.f 49 45) v)).poisonFault e
      else placeLoaded wide e c b v s

/-- A keeper's LD (R143): from any store, HyperRAM, the boot flash window or a control register; a read of IRQ_WAIT may be
held (R435). (DESIGN CHOICE, log entry 190.) -/
def loadKeeper (e : EngId) (b : KBits) (s : State) : State :=
  let a := mmAddr (s.eng e) b
  let put (s : State) (v : Word) : State := s.updEng e (fun x => x.ws (b.f 49 45) v)
  if s.storeOk a 1 && !s.opens a then s.block e 0x28 b
  else if s.storeOk a 1 then
    let ((v, p), s) := (s.turnFor (requester e) a).getWord (portOf e a) a
    if p then (put s v).poisonFault e else (put s v).retire e
  else if s.offChip a false then (put s (s.rawWord a)).retire e
  else if regAddr a then
    match s.regRead (a - ctrlBase) with
    | (some v, s) => (put s v).retire e
    | (none, s) => s.updEng e (fun x => { x with wait := .irq 0x28 b, since := some s.time })
  else s.addrFault e a

/-- LD or DLD on its operands (R142). -/
def loadBody (wide : Bool) (e : EngId) (b : KBits) (s : State) : State :=
  match e with
  | .execute c => takeForwarded wide e c b s
  | .fetch c => loadFetch wide e c b s
  | .keeper _ => loadKeeper e b s

/-- LD and DLD: both engines or the fetch engine; keepers have LD alone (R138, R156). -/
def runLoad (wide : Bool) (e : EngId) (b : KBits) (s : State) : State :=
  runInstr { both := true, fetch := true, keeper := !wide } (fun b => b.z 40 32) (loadBody wide) e b s

/-- LD (R142). -/
def execLd (e : EngId) (b : KBits) (s : State) : Host.Outcome State Fault Refusal := done (runLoad false e b s)

/-- DLD (R142). -/
def execDld (e : EngId) (b : KBits) (s : State) : Host.Outcome State Fault Refusal := done (runLoad true e b s)

/-! ### Stores -/

/-- The eight words of a descriptor (R148). -/
def wordsOfDesc (d : BitVec 256) : List Word := (List.range 8).map (descWord d)

/-- What an ST or a DST stores. -/
def storeData (wide : Bool) (x : Engine) (b : KBits) : List Word :=
  if wide then wordsOfDesc (x.rdesc (b.f 49 45)) else [x.rs (b.f 49 45)]

/-- A keeper's ST (R143): to any store, to HyperRAM or to a control register.  A write of a register acts after the instruction
has completed, so that one that stops or restarts the keeper finds it there. (DESIGN CHOICE, log entry 189.) -/
def storeKeeper (k : Fin 4) (b : KBits) (s : State) : State :=
  let e : EngId := .keeper k
  let x := s.eng e
  let a := mmAddr x b
  let v := x.rs (b.f 49 45)
  if s.storeOk a 1 && !s.opens a then s.block e 0x29 b
  else if s.storeOk a 1 then ((s.turnFor (requester e) a).putWord a v).retire e
  else if s.offChip a true then (s.putWord a v).retire e
  else if regAddr a then (s.retire e).regWrite k (a - ctrlBase) v
  else s.addrFault e a

/-- ST or DST on its operands (R142). -/
def storeBody (wide : Bool) (e : EngId) (b : KBits) (s : State) : State :=
  match e with
  | .keeper k => storeKeeper k b s
  | .fetch _ | .execute _ =>
    let x := s.eng e
    let a := mmAddr x b
    let l := storeData wide x b
    if !s.coreServed a l.length then s.addrFault e a
    else if !s.opens a then s.block e (if wide then 0x2B else 0x29) b
    else ((s.turnFor (requester e) a).putWords a false l).retire e

/-- ST and DST: the fetch engine; keepers have ST alone (R138, R156). -/
def runStore (wide : Bool) (e : EngId) (b : KBits) (s : State) : State :=
  runInstr { fetch := true, keeper := !wide } (fun b => b.z 40 32) (storeBody wide) e b s

/-- ST (R142). -/
def execSt (e : EngId) (b : KBits) (s : State) : Host.Outcome State Fault Refusal := done (runStore false e b s)

/-- DST (R142). -/
def execDst (e : EngId) (b : KBits) (s : State) : Host.Outcome State Fault Refusal := done (runStore true e b s)

end Sys2Proof.Machine
end

