-- ==== Sys2Proof/Machine/Resume.lean ====
section
/-! DEFINITION. ENGINE_RESUME: an engine whose instruction waits starts it again when its condition has cleared (R103, R107). -/

namespace Sys2Proof.Machine

/-- Starts the instruction of an opcode that can wait: a load or store, a stream, slot or memory-side instruction, a chain instruction, a
matrix or vector instruction, or REQ (R101, R103, R107). -/
def runWaiting (op : BitVec 8) (e : EngId) (b : KBits) (s : State) : State :=
  match op.toNat with
  | 0x28 => runLoad false e b s
  | 0x29 => runStore false e b s
  | 0x2A => runLoad true e b s
  | 0x2B => runStore true e b s
  | 0x40 => runArm e b s
  | 0x42 => runSwait e b s
  | 0x48 => runSlot op countBody e b s
  | 0x49 => runSlot op countBody e b s
  | 0x4A => runSlot op waitBody e b s
  | 0x4B => runSlot op waitBody e b s
  | 0x50 => runCmpcnt e b s
  | 0x51 => runFadd e b s
  | 0x52 => runCas e b s
  | 0x58 => runHsend e b s
  | 0x59 => runHrecv e b s
  | 0x5A => runQrel e b s
  | 0x80 => runMma e b s
  | 0x81 => runConv e b s
  | 0x82 => runWino e b s
  | 0x83 => runDwconv e b s
  | 0x88 => runPool e b s
  | 0x89 => runUps e b s
  | 0x98 => if b.f 32 31 = 3 then runReqLoad e b s else runReq (b.f 32 31) e b s
  | _ => s

/-- Whether an engine may go on: it runs and has not stopped, whatever it waits for. -/
def State.mayResume (s : State) (e : EngId) : Bool := (s.updEng e (fun x => { x with wait := .none })).ready e

/-- An engine goes on with the instruction it waits in: it starts the instruction again, or completes it with the result a HALT
had kept back (R103, R107). -/
def State.resume (s : State) (e : EngId) : State :=
  if !s.mayResume e then s
  else match (s.eng e).wait with
    | .blocked op b => runWaiting op e b (s.updEng e (fun x => { x with wait := .none }))
    | .parked op b => match (s.eng e).got with
      | some r => watchFinish e op b r s
      | none => s
    | _ => s

/-- ENGINE_RESUME (R103, R107). -/
def execEngineResume (e : EngId) (s : State) : Host.Outcome State Fault Refusal := done (s.resume e)

end Sys2Proof.Machine
end

