-- ==== Sys2Proof/Machine/Scalar.lean ====
section
/-! DEFINITION. Scalar, predicate, address, control, loop and descriptor instructions (R138 to R148, R155). -/

namespace Sys2Proof.Machine

/-- Computes Sd from Sa and Sb (R139, format RR). -/
def aluRR (f : Word → Word → Word) (e : EngId) (b : KBits) (s : State) : State :=
  runInstr anyEngine (fun b => b.z 34 0) (fun e b s =>
    let x := s.eng e
    (s.setEng e (x.ws (b.f 49 45) (f (x.rs (b.f 44 40)) (x.rs (b.f 39 35))))).retire e) e b s

/-- Computes Sd from Sa and the immediate (R139, format RI). -/
def aluRI (f : Word → Word → Word) (e : EngId) (b : KBits) (s : State) : State :=
  runInstr anyEngine (fun b => b.z 39 32) (fun e b s =>
    let x := s.eng e
    (s.setEng e (x.ws (b.f 49 45) (f (x.rs (b.f 44 40)) b.imm))).retire e) e b s

/-- ADD (R139). -/
def execAdd (e : EngId) (b : KBits) (s : State) : Host.Outcome State Fault Refusal :=
  done (aluRR (fun a b => a + b) e b s)

/-- SUB (R139). -/
def execSub (e : EngId) (b : KBits) (s : State) : Host.Outcome State Fault Refusal :=
  done (aluRR (fun a b => a - b) e b s)

/-- AND (R139). -/
def execAnd (e : EngId) (b : KBits) (s : State) : Host.Outcome State Fault Refusal :=
  done (aluRR (fun a b => a &&& b) e b s)

/-- OR (R139). -/
def execOr (e : EngId) (b : KBits) (s : State) : Host.Outcome State Fault Refusal :=
  done (aluRR (fun a b => a ||| b) e b s)

/-- XOR (R139). -/
def execXor (e : EngId) (b : KBits) (s : State) : Host.Outcome State Fault Refusal :=
  done (aluRR (fun a b => a ^^^ b) e b s)

/-- SHL (R139). -/
def execShl (e : EngId) (b : KBits) (s : State) : Host.Outcome State Fault Refusal :=
  done (aluRR (fun a b => a <<< (b.toNat % 32)) e b s)

/-- SHR (R139). -/
def execShr (e : EngId) (b : KBits) (s : State) : Host.Outcome State Fault Refusal :=
  done (aluRR (fun a b => a >>> (b.toNat % 32)) e b s)

/-- SRA (R139). -/
def execSra (e : EngId) (b : KBits) (s : State) : Host.Outcome State Fault Refusal :=
  done (aluRR (fun a b => a.sshiftRight (b.toNat % 32)) e b s)

/-- MUL (R139). -/
def execMul (e : EngId) (b : KBits) (s : State) : Host.Outcome State Fault Refusal :=
  done (aluRR (fun a b => a * b) e b s)

/-- MIN (R139). -/
def execMin (e : EngId) (b : KBits) (s : State) : Host.Outcome State Fault Refusal :=
  done (aluRR (fun a b => if a.toInt < b.toInt then a else b) e b s)

/-- MAX (R139). -/
def execMax (e : EngId) (b : KBits) (s : State) : Host.Outcome State Fault Refusal :=
  done (aluRR (fun a b => if a.toInt < b.toInt then b else a) e b s)

/-- ADDI (R139). -/
def execAddi (e : EngId) (b : KBits) (s : State) : Host.Outcome State Fault Refusal :=
  done (aluRI (fun a b => a + b) e b s)

/-- ANDI (R139). -/
def execAndi (e : EngId) (b : KBits) (s : State) : Host.Outcome State Fault Refusal :=
  done (aluRI (fun a b => a &&& b) e b s)

/-- ORI (R139). -/
def execOri (e : EngId) (b : KBits) (s : State) : Host.Outcome State Fault Refusal :=
  done (aluRI (fun a b => a ||| b) e b s)

/-- XORI (R139). -/
def execXori (e : EngId) (b : KBits) (s : State) : Host.Outcome State Fault Refusal :=
  done (aluRI (fun a b => a ^^^ b) e b s)

/-- SHLI (R139). -/
def execShli (e : EngId) (b : KBits) (s : State) : Host.Outcome State Fault Refusal :=
  done (aluRI (fun a b => a <<< (b.toNat % 32)) e b s)

/-- SHRI (R139). -/
def execShri (e : EngId) (b : KBits) (s : State) : Host.Outcome State Fault Refusal :=
  done (aluRI (fun a b => a >>> (b.toNat % 32)) e b s)

/-- SRAI (R139). -/
def execSrai (e : EngId) (b : KBits) (s : State) : Host.Outcome State Fault Refusal :=
  done (aluRI (fun a b => a.sshiftRight (b.toNat % 32)) e b s)

/-- MULI (R139). -/
def execMuli (e : EngId) (b : KBits) (s : State) : Host.Outcome State Fault Refusal :=
  done (aluRI (fun a b => a * b) e b s)

/-- Writes a condition of Sa and an operand to Pd (R140). -/
def compareTo (operand : Engine → KBits → Word) (e : EngId) (b : KBits) (s : State) : State :=
  let x := s.eng e
  (s.setEng e (x.wp (b.f 49 47) (cmpCond (b.f 46 44) (x.rs (b.f 43 39)) (operand x b)))).retire e

/-- NOP (R138), and, for any other opcode byte, an encoding the table of opcodes does not assign (R131). -/
def execNop (e : EngId) (opcode : BitVec 8) (b : KBits) (s : State) : Host.Outcome State Fault Refusal :=
  done (runInstr anyEngine (fun b => opcode == 0 && b.z 49 0) (fun e _ s => s.retire e) e b s)

/-- CMP: Pd is cond(Sa, Sb) (R140). -/
def execCmp (e : EngId) (b : KBits) (s : State) : Host.Outcome State Fault Refusal :=
  done (runInstr anyEngine (fun b => b.z 33 0 && decide (b.f 46 44 ≤ 5)) (compareTo (fun x b => x.rs (b.f 38 34))) e b s)

/-- CMPI: Pd is cond(Sa, imm) (R140). -/
def execCmpi (e : EngId) (b : KBits) (s : State) : Host.Outcome State Fault Refusal :=
  done (runInstr anyEngine (fun b => b.z 38 32 && decide (b.f 46 44 ≤ 5)) (compareTo (fun _ b => b.imm)) e b s)

/-- PLOG: Pd is bit (2 × Pa + Pb) of tt (R140). -/
def execPlog (e : EngId) (b : KBits) (s : State) : Host.Outcome State Fault Refusal :=
  done (runInstr anyEngine (fun b => b.z 36 0) (fun e b s =>
    let x := s.eng e
    (s.setEng e (x.wp (b.f 49 47) (plogBit (b.f 40 37) (x.rp (b.f 46 44)) (x.rp (b.f 43 41))))).retire e) e b s)

/-- GETN: Sd is Nn (R140). -/
def execGetn (e : EngId) (b : KBits) (s : State) : Host.Outcome State Fault Refusal :=
  done (runInstr anyEngine (fun b => b.z 42 0) (fun e b s =>
    let x := s.eng e
    (s.setEng e (x.ws (b.f 49 45) (x.rn (b.f 44 43)))).retire e) e b s)

/-- AMOVI: Ad is imm40 (R141). -/
def execAmovi (e : EngId) (b : KBits) (s : State) : Host.Outcome State Fault Refusal :=
  done (runInstr fetchKeeper (fun b => b.z 45 40) (fun e b s =>
    let x := s.eng e
    (s.setEng e (x.wa (b.f 49 46) (b.ops.extractLsb' 0 40))).retire e) e b s)

/-- AADD: Ad is Aa + sign-extended Sb + sign-extended imm, modulo 2^40 (R141). -/
def execAadd (e : EngId) (b : KBits) (s : State) : Host.Outcome State Fault Refusal :=
  done (runInstr fetchKeeper (fun b => b.z 36 32) (fun e b s =>
    let x := s.eng e
    (s.setEng e (x.wa (b.f 49 46)
      (x.ra (b.f 45 42) + (x.rs (b.f 41 37)).signExtend 40 + b.imm.signExtend 40))).retire e) e b s)

/-- JMP: the engine goes on at instruction target (R145). -/
def execJmp (e : EngId) (b : KBits) (s : State) : Host.Outcome State Fault Refusal :=
  done (runInstr anyEngine (fun b => b.z 49 13) (fun e b s => s.jumpTo e (b.f 12 0)) e b s)

/-- Whether R147 forbids a LOOP at instruction `i` whatever its count or guard. -/
def loopIllegal (x : Engine) (i : Nat) (b : KBits) : Bool :=
  decide (b.f 42 30 ≤ i) || x.loops.any (fun l => decide (l.last < b.f 42 30) || l.counter == b.f 49 48)

/-- LOOP at an engine's present instruction (R146): a count of zero or a false guard goes on as though the end instruction had
just completed; any other count begins the body with Nn holding it. -/
def loopBody (e : EngId) (b : KBits) (s : State) : State :=
  let x := s.eng e
  let c := x.rs (b.f 47 43) + BitVec.ofNat 32 (b.f 15 0)
  if c = 0 ∨ !x.guard b then s.completeAt e (b.f 42 30)
  else
    s.setEng e { x.wn (b.f 49 48) c with
      pc := x.pc + 1
      loops := { counter := b.f 49 48, first := x.pc + 1, last := b.f 42 30 } :: x.loops }

/-- LOOP (R146, R147); its guard acts as a count of zero, after the checks (R130). -/
def execLoop (e : EngId) (b : KBits) (s : State) : Host.Outcome State Fault Refusal :=
  done (runInstr anyEngine (fun b => b.z 29 16) (fun e _ s =>
    if loopIllegal (s.eng e) (s.eng e).pc b then s.instrFault e codeIllegal else loopBody e b s)
    e { b with gp := 0, gn := false } s)

/-- HALT: the engine stops when it completes the HALT; a keeper enters HALTED (R155, R424). -/
def execHalt (e : EngId) (b : KBits) (s : State) : Host.Outcome State Fault Refusal :=
  done (runInstr { both := true, keeper := true } (fun b => b.z 49 0) (fun e _ s =>
    let s := s.retire e
    match e with
    | .keeper k => if (s.keeper k).state = 1 then s.updKeeper k (fun v => { v with state := 2 }) else s
    | .fetch c | .execute c =>
      if (s.core c).state = 2 then
        (s.updEng e (fun x => { x with stopped := true, atHalt := true })).settleHalt c
      else s) e b s)

/-- DSETW: word w of Dd is Sa (R148). -/
def execDsetw (e : EngId) (b : KBits) (s : State) : Host.Outcome State Fault Refusal :=
  done (runInstr coreEngines (fun b => b.z 44 40 && b.z 31 0) (fun e b s =>
    let x := s.eng e
    let d := b.f 49 45
    (s.setEng e (x.wdesc d (setDescWord (x.rdesc d) (b.f 34 32) (x.rs (b.f 39 35))))).retire e) e b s)

/-- DGETW: Sd is word w of Da (R148). -/
def execDgetw (e : EngId) (b : KBits) (s : State) : Host.Outcome State Fault Refusal :=
  done (runInstr coreEngines (fun b => b.z 39 35 && b.z 31 0) (fun e b s =>
    let x := s.eng e
    (s.setEng e (x.ws (b.f 49 45) (descWord (x.rdesc (b.f 44 40)) (b.f 34 32)))).retire e) e b s)

/-- DMOV: Dd is Da (R148). -/
def execDmov (e : EngId) (b : KBits) (s : State) : Host.Outcome State Fault Refusal :=
  done (runInstr coreEngines (fun b => b.z 39 0) (fun e b s =>
    let x := s.eng e
    (s.setEng e (x.wdesc (b.f 49 45) (x.rdesc (b.f 44 40)))).retire e) e b s)

/-- A descriptor with a signed amount added to its base, modulo 2^40 (R148). -/
def addBase (d : BitVec 256) (v : Word) : BitVec 256 :=
  let base : Addr := d.extractLsb' 0 40 + v.signExtend 40
  (d &&& ~~~(0xFFFFFFFFFF : BitVec 256)) ||| base.setWidth 256

/-- DADDB: adds sign-extended Sa to the base of Dd (R148). -/
def execDaddb (e : EngId) (b : KBits) (s : State) : Host.Outcome State Fault Refusal :=
  done (runInstr coreEngines (fun b => b.z 44 40 && b.z 34 0) (fun e b s =>
    let x := s.eng e
    let d := b.f 49 45
    (s.setEng e (x.wdesc d (addBase (x.rdesc d) (x.rs (b.f 39 35))))).retire e) e b s)

end Sys2Proof.Machine
end

