-- ==== Sys2Proof/Machine/Dispatch.lean ====
section
/-! DEFINITION. The command a constructor names: one arm per constructor, one direct call of its meaning. -/

namespace Sys2Proof.Machine

/-- The effect of a command on everything but the queue. (DESIGN CHOICE, log entry 12.) -/
def exec (i : Instr) (s : State) : Host.Outcome State Fault Refusal :=
  match i with
  | .registerWrite k addr bytes value => Sys2Proof.Machine.execRegisterWrite k addr bytes value s
  | .powerOnReset straps => Sys2Proof.Machine.execPowerOnReset straps s
  | .warmReset => Sys2Proof.Machine.execWarmReset s
  | .softwareWarmReset value => Sys2Proof.Machine.execSoftwareWarmReset value s
  | .jtagReset => Sys2Proof.Machine.execJtagReset s
  | .supplyFault => Sys2Proof.Machine.execSupplyFault s
  | .thermalTrip c reading => Sys2Proof.Machine.execThermalTrip c reading s
  | .storeInitDone => Sys2Proof.Machine.execStoreInitDone s
  | .bootComplete => Sys2Proof.Machine.execBootComplete s
  | .storeAccess r => Sys2Proof.Machine.execStoreAccess r s
  | .watchResult e => Sys2Proof.Machine.execWatchResult e s
  | .watchWithdraw e => Sys2Proof.Machine.execWatchWithdraw e s
  | .slotWatchdogExpiry c => Sys2Proof.Machine.execSlotWatchdogExpiry c s
  | .scrubRead store octet => Sys2Proof.Machine.execScrubRead store octet s
  | .bandRequest store value => Sys2Proof.Machine.execBandRequest store value s
  | .bandTransitionDone store band => Sys2Proof.Machine.execBandTransitionDone store band s
  | .stoCounterClear => Sys2Proof.Machine.execStoCounterClear s
  | .monitorWindowEnd c transits handshakes blockedNs => Sys2Proof.Machine.execMonitorWindowEnd c transits handshakes blockedNs s
  | .belayLower => Sys2Proof.Machine.execBelayLower s
  | .railBelowVlowRaise => Sys2Proof.Machine.execRailBelowVlowRaise s
  | .avsTargetWrite value => Sys2Proof.Machine.execAvsTargetWrite value s
  | .avsResponse r => Sys2Proof.Machine.execAvsResponse r s
  | .avsReadback => Sys2Proof.Machine.execAvsReadback s
  | .avsFaultClear value => Sys2Proof.Machine.execAvsFaultClear value s
  | .pmbusStart value => Sys2Proof.Machine.execPmbusStart value s
  | .pmbusDone nack pecErr arbLost data => Sys2Proof.Machine.execPmbusDone nack pecErr arbLost data s
  | .stripeShadowWrite x stripe value => Sys2Proof.Machine.execStripeShadowWrite x stripe value s
  | .cumClear x value => Sys2Proof.Machine.execCumClear x value s
  | .calUserWrite c value => Sys2Proof.Machine.execCalUserWrite c value s
  | .userClear value => Sys2Proof.Machine.execUserClear value s
  | .frameBoundary r m => Sys2Proof.Machine.execFrameBoundary r m s
  | .decisionInstant r n => Sys2Proof.Machine.execDecisionInstant r n s
  | .releaseInstant x n => Sys2Proof.Machine.execReleaseInstant x n s
  | .lineBlend r n lanes => Sys2Proof.Machine.execLineBlend r n lanes s
  | .surfaceFetch layer line => Sys2Proof.Machine.execSurfaceFetch layer line s
  | .flipEdge r => Sys2Proof.Machine.execFlipEdge r s
  | .nop e opcode b => Sys2Proof.Machine.execNop e opcode b s
  | .add e b => Sys2Proof.Machine.execAdd e b s
  | .sub e b => Sys2Proof.Machine.execSub e b s
  | .and e b => Sys2Proof.Machine.execAnd e b s
  | .or e b => Sys2Proof.Machine.execOr e b s
  | .xor e b => Sys2Proof.Machine.execXor e b s
  | .shl e b => Sys2Proof.Machine.execShl e b s
  | .shr e b => Sys2Proof.Machine.execShr e b s
  | .sra e b => Sys2Proof.Machine.execSra e b s
  | .mul e b => Sys2Proof.Machine.execMul e b s
  | .min e b => Sys2Proof.Machine.execMin e b s
  | .max e b => Sys2Proof.Machine.execMax e b s
  | .addi e b => Sys2Proof.Machine.execAddi e b s
  | .andi e b => Sys2Proof.Machine.execAndi e b s
  | .ori e b => Sys2Proof.Machine.execOri e b s
  | .xori e b => Sys2Proof.Machine.execXori e b s
  | .shli e b => Sys2Proof.Machine.execShli e b s
  | .shri e b => Sys2Proof.Machine.execShri e b s
  | .srai e b => Sys2Proof.Machine.execSrai e b s
  | .muli e b => Sys2Proof.Machine.execMuli e b s
  | .cmp e b => Sys2Proof.Machine.execCmp e b s
  | .cmpi e b => Sys2Proof.Machine.execCmpi e b s
  | .plog e b => Sys2Proof.Machine.execPlog e b s
  | .getn e b => Sys2Proof.Machine.execGetn e b s
  | .amovi e b => Sys2Proof.Machine.execAmovi e b s
  | .aadd e b => Sys2Proof.Machine.execAadd e b s
  | .ld e b => Sys2Proof.Machine.execLd e b s
  | .st e b => Sys2Proof.Machine.execSt e b s
  | .dld e b => Sys2Proof.Machine.execDld e b s
  | .dst e b => Sys2Proof.Machine.execDst e b s
  | .jmp e b => Sys2Proof.Machine.execJmp e b s
  | .loop e b => Sys2Proof.Machine.execLoop e b s
  | .dsetw e b => Sys2Proof.Machine.execDsetw e b s
  | .dgetw e b => Sys2Proof.Machine.execDgetw e b s
  | .dmov e b => Sys2Proof.Machine.execDmov e b s
  | .daddb e b => Sys2Proof.Machine.execDaddb e b s
  | .arm e b => Sys2Proof.Machine.execArm e b s
  | .rearm e b => Sys2Proof.Machine.execRearm e b s
  | .swait e b => Sys2Proof.Machine.execSwait e b s
  | .fill e b => Sys2Proof.Machine.execFill e b s
  | .drain e b => Sys2Proof.Machine.execDrain e b s
  | .waitf e b => Sys2Proof.Machine.execWaitf e b s
  | .waitd e b => Sys2Proof.Machine.execWaitd e b s
  | .cmpcnt e b => Sys2Proof.Machine.execCmpcnt e b s
  | .fadd e b => Sys2Proof.Machine.execFadd e b s
  | .cas e b => Sys2Proof.Machine.execCas e b s
  | .hsend e b => Sys2Proof.Machine.execHsend e b s
  | .hrecv e b => Sys2Proof.Machine.execHrecv e b s
  | .qrel e b => Sys2Proof.Machine.execQrel e b s
  | .epochReady e b => Sys2Proof.Machine.execEpochReady e b s
  | .epochOpen e b => Sys2Proof.Machine.execEpochOpen e b s
  | .epochCommit e b => Sys2Proof.Machine.execEpochCommit e b s
  | .epochAbort e b => Sys2Proof.Machine.execEpochAbort e b s
  | .halt e b => Sys2Proof.Machine.execHalt e b s
  | .mma e b => Sys2Proof.Machine.execMma e b s
  | .conv e b => Sys2Proof.Machine.execConv e b s
  | .wino e b => Sys2Proof.Machine.execWino e b s
  | .dwconv e b => Sys2Proof.Machine.execDwconv e b s
  | .pool e b => Sys2Proof.Machine.execPool e b s
  | .ups e b => Sys2Proof.Machine.execUps e b s
  | .elemAdd e b => Sys2Proof.Machine.execElemAdd e b s
  | .elemSub e b => Sys2Proof.Machine.execElemSub e b s
  | .elemMul e b => Sys2Proof.Machine.execElemMul e b s
  | .elemMin e b => Sys2Proof.Machine.execElemMin e b s
  | .elemMax e b => Sys2Proof.Machine.execElemMax e b s
  | .elemAbs e b => Sys2Proof.Machine.execElemAbs e b s
  | .elemNeg e b => Sys2Proof.Machine.execElemNeg e b s
  | .elemMov e b => Sys2Proof.Machine.execElemMov e b s
  | .elemSrar e b => Sys2Proof.Machine.execElemSrar e b s
  | .elemShl e b => Sys2Proof.Machine.execElemShl e b s
  | .elemCvtif e b => Sys2Proof.Machine.execElemCvtif e b s
  | .elemCvtfi e b => Sys2Proof.Machine.execElemCvtfi e b s
  | .elemCvtfb e b => Sys2Proof.Machine.execElemCvtfb e b s
  | .elemCvtbf e b => Sys2Proof.Machine.execElemCvtbf e b s
  | .elemExp2 e b => Sys2Proof.Machine.execElemExp2 e b s
  | .elemRcp e b => Sys2Proof.Machine.execElemRcp e b s
  | .elemRsqrt e b => Sys2Proof.Machine.execElemRsqrt e b s
  | .elemRmax e b => Sys2Proof.Machine.execElemRmax e b s
  | .elemRsum e b => Sys2Proof.Machine.execElemRsum e b s
  | .reqScalar e b => Sys2Proof.Machine.execReqScalar e b s
  | .reqTable e b => Sys2Proof.Machine.execReqTable e b s
  | .reqDynamic e b => Sys2Proof.Machine.execReqDynamic e b s
  | .reqLoad e b => Sys2Proof.Machine.execReqLoad e b s
  | .statMaxabs e b => Sys2Proof.Machine.execStatMaxabs e b s
  | .statMse e b => Sys2Proof.Machine.execStatMse e b s
  | .rot e b => Sys2Proof.Machine.execRot e b s
  | .boxd e b => Sys2Proof.Machine.execBoxd e b s
  | .nms e b => Sys2Proof.Machine.execNms e b s
  | .digestClear e b => Sys2Proof.Machine.execDigestClear e b s
  | .digestCheck e b => Sys2Proof.Machine.execDigestCheck e b s
  | .engineResume e => Sys2Proof.Machine.execEngineResume e s
  | .streamArmingComplete c k => Sys2Proof.Machine.execStreamArmingComplete c k s
  | .chainStall c => Sys2Proof.Machine.execChainStall c s
  | .coreStart c => Sys2Proof.Machine.execCoreStart c s
  | .coreHalt c => Sys2Proof.Machine.execCoreHalt c s
  | .coreStop c => Sys2Proof.Machine.execCoreStop c s
  | .coreWithdraw c => Sys2Proof.Machine.execCoreWithdraw c s
  | .coreRestore c => Sys2Proof.Machine.execCoreRestore c s
  | .chainCut c => Sys2Proof.Machine.execChainCut c s
  | .coreBindSet c value => Sys2Proof.Machine.execCoreBindSet c value s
  | .coreBindClear c value => Sys2Proof.Machine.execCoreBindClear c value s
  | .coreConfigWrite c chainCfg value => Sys2Proof.Machine.execCoreConfigWrite c chainCfg value s
  | .ringTableWrite c ring word value => Sys2Proof.Machine.execRingTableWrite c ring word value s
  | .ringCut c value => Sys2Proof.Machine.execRingCut c value s
  | .ringCutDone c => Sys2Proof.Machine.execRingCutDone c s
  | .pocketIndexWrite c value => Sys2Proof.Machine.execPocketIndexWrite c value s
  | .pocketWrite c value => Sys2Proof.Machine.execPocketWrite c value s
  | .pocketLoad c value => Sys2Proof.Machine.execPocketLoad c value s
  | .pocketLoadDone c => Sys2Proof.Machine.execPocketLoadDone c s
  | .digestLoRead c => Sys2Proof.Machine.execDigestLoRead c s
  | .knotEvict value => Sys2Proof.Machine.execKnotEvict value s
  | .knotRemove value => Sys2Proof.Machine.execKnotRemove value s
  | .libraryImport value => Sys2Proof.Machine.execLibraryImport value s
  | .importEnd => Sys2Proof.Machine.execImportEnd s
  | .loadComplete knot => Sys2Proof.Machine.execLoadComplete knot s
  | .verify value => Sys2Proof.Machine.execVerify value s
  | .verifyEnd => Sys2Proof.Machine.execVerifyEnd s
  | .bindGo value => Sys2Proof.Machine.execBindGo value s
  | .bindPrepared slot => Sys2Proof.Machine.execBindPrepared slot s
  | .bindApply slot => Sys2Proof.Machine.execBindApply slot s
  | .bindCancel value => Sys2Proof.Machine.execBindCancel value s
  | .bindUnbind value => Sys2Proof.Machine.execBindUnbind value s
  | .sinkLinkEvent port ev => Sys2Proof.Machine.execSinkLinkEvent port ev s
  | .sinkLineArrival port line pixels => Sys2Proof.Machine.execSinkLineArrival port line pixels s
  | .sinkVideoTimeout port => Sys2Proof.Machine.execSinkVideoTimeout port s
  | .vscSdp port db => Sys2Proof.Machine.execVscSdp port db s
  | .sinkHdcpChange port encrypted type1 => Sys2Proof.Machine.execSinkHdcpChange port encrypted type1 s
  | .inputRowWrite x j => Sys2Proof.Machine.execInputRowWrite x j s
  | .holdExpiry x => Sys2Proof.Machine.execHoldExpiry x s
  | .commit value => Sys2Proof.Machine.execCommit value s
  | .commitCancel => Sys2Proof.Machine.execCommitCancel s
  | .lutDataAccess write => Sys2Proof.Machine.execLutDataAccess write s
  | .cvLoad value => Sys2Proof.Machine.execCvLoad value s
  | .cvLoadDone => Sys2Proof.Machine.execCvLoadDone s
  | .timingApply r value => Sys2Proof.Machine.execTimingApply r value s
  | .sourceLinkEvent o ev => Sys2Proof.Machine.execSourceLinkEvent o ev s
  | .phyLinkUp p slow master => Sys2Proof.Machine.execPhyLinkUp p slow master s
  | .phyLinkDown p => Sys2Proof.Machine.execPhyLinkDown p s
  | .portResync p => Sys2Proof.Machine.execPortResync p s
  | .syncTimer p => Sys2Proof.Machine.execSyncTimer p s
  | .sync p => Sys2Proof.Machine.execSync p s
  | .syncAck p => Sys2Proof.Machine.execSyncAck p s
  | .data p f => Sys2Proof.Machine.execData p f s
  | .ack p ackn => Sys2Proof.Machine.execAck p ackn s
  | .nak p ackn => Sys2Proof.Machine.execNak p ackn s
  | .retransmitTimeout p => Sys2Proof.Machine.execRetransmitTimeout p s
  | .write p => Sys2Proof.Machine.execWrite p s
  | .splice p => Sys2Proof.Machine.execSplice p s
  | .read p => Sys2Proof.Machine.execRead p s
  | .atomic p => Sys2Proof.Machine.execAtomic p s
  | .mcast p => Sys2Proof.Machine.execMcast p s
  | .mgmtRd p => Sys2Proof.Machine.execMgmtRd p s
  | .mgmtWr p => Sys2Proof.Machine.execMgmtWr p s
  | .flip p => Sys2Proof.Machine.execFlip p s
  | .writeResponse p => Sys2Proof.Machine.execWriteResponse p s
  | .readResponse p => Sys2Proof.Machine.execReadResponse p s
  | .atomicResponse p => Sys2Proof.Machine.execAtomicResponse p s
  | .mcastAck p => Sys2Proof.Machine.execMcastAck p s
  | .windowOpen value => Sys2Proof.Machine.execWindowOpen value s
  | .windowClose value => Sys2Proof.Machine.execWindowClose value s
  | .windowCloseDone w => Sys2Proof.Machine.execWindowCloseDone w s
  | .dmaGo ch value => Sys2Proof.Machine.execDmaGo ch value s
  | .dmaAbort ch => Sys2Proof.Machine.execDmaAbort ch s
  | .dmaTxnIssue ch => Sys2Proof.Machine.execDmaTxnIssue ch s
  | .dmaTxnTimeout ch tag => Sys2Proof.Machine.execDmaTxnTimeout ch tag s
  | .mcastRepairTimeout ch member => Sys2Proof.Machine.execMcastRepairTimeout ch member s
  | .spliceLineSend ch => Sys2Proof.Machine.execSpliceLineSend ch s
  | .fiCtrlWrite p value => Sys2Proof.Machine.execFiCtrlWrite p value s
  | .fiHoldRelease p => Sys2Proof.Machine.execFiHoldRelease p s
  | .timeStep value => Sys2Proof.Machine.execTimeStep value s
  | .timeNowRead => Sys2Proof.Machine.execTimeNowRead s
  | .ptpSync p m => Sys2Proof.Machine.execPtpSync p m s
  | .ptpFollowUp p m => Sys2Proof.Machine.execPtpFollowUp p m s
  | .followUpTimeout p => Sys2Proof.Machine.execFollowUpTimeout p s
  | .rateTakeEffect => Sys2Proof.Machine.execRateTakeEffect s
  | .holdoverEntry => Sys2Proof.Machine.execHoldoverEntry s
  | .gmSyncSend p => Sys2Proof.Machine.execGmSyncSend p s
  | .pdelayReqSend p => Sys2Proof.Machine.execPdelayReqSend p s
  | .pdelayReq p m => Sys2Proof.Machine.execPdelayReq p m s
  | .pdelayResp p m => Sys2Proof.Machine.execPdelayResp p m s
  | .pdelayRespFollowUp p m => Sys2Proof.Machine.execPdelayRespFollowUp p m s
  | .announce p => Sys2Proof.Machine.execAnnounce p s
  | .flipAnnounceCheck => Sys2Proof.Machine.execFlipAnnounceCheck s
  | .annLostClear value => Sys2Proof.Machine.execAnnLostClear value s
  | .keeperStart k => Sys2Proof.Machine.execKeeperStart k s
  | .keeperHalt k => Sys2Proof.Machine.execKeeperHalt k s
  | .keeperReset k => Sys2Proof.Machine.execKeeperReset k s
  | .managementTick m => Sys2Proof.Machine.execManagementTick m s
  | .doorbell value => Sys2Proof.Machine.execDoorbell value s
  | .watchdogKick k value => Sys2Proof.Machine.execWatchdogKick k value s
  | .keeperWatchdogExpiry k => Sys2Proof.Machine.execKeeperWatchdogExpiry k s
  | .irqClaim t => Sys2Proof.Machine.execIrqClaim t s
  | .irqWait t => Sys2Proof.Machine.execIrqWait t s
  | .irqWaitReturn t => Sys2Proof.Machine.execIrqWaitReturn t s
  | .irqComplete t value => Sys2Proof.Machine.execIrqComplete t value s
  | .rptSeqRead x => Sys2Proof.Machine.execRptSeqRead x s
  | .eventSend => Sys2Proof.Machine.execEventSend s
  | .eventResend src => Sys2Proof.Machine.execEventResend src s
  | .eventChannelDisable value => Sys2Proof.Machine.execEventChannelDisable value s
  | .i2cWrite start data => Sys2Proof.Machine.execI2cWrite start data s
  | .i2cRead read => Sys2Proof.Machine.execI2cRead read s
  | .mailboxSend => Sys2Proof.Machine.execMailboxSend s
  | .mailboxAck => Sys2Proof.Machine.execMailboxAck s
  | .h2dDone value => Sys2Proof.Machine.execH2dDone value s
  | .d2hSend value => Sys2Proof.Machine.execD2hSend value s
  | .xspiSectorErase k value => Sys2Proof.Machine.execXspiSectorErase k value s
  | .xspiPageProgram k value => Sys2Proof.Machine.execXspiPageProgram k value s
  | .xspiDone => Sys2Proof.Machine.execXspiDone s
  | .otpRead value => Sys2Proof.Machine.execOtpRead value s
  | .otpProgram value vppLow => Sys2Proof.Machine.execOtpProgram value vppLow s
  | .otpDone => Sys2Proof.Machine.execOtpDone s
  | .svnAdvance value vppLow => Sys2Proof.Machine.execSvnAdvance value vppLow s
  | .attReport value => Sys2Proof.Machine.execAttReport value s
  | .attReportSession value => Sys2Proof.Machine.execAttReportSession value s
  | .gcmEncrypt value => Sys2Proof.Machine.execGcmEncrypt value s
  | .gcmDecrypt value => Sys2Proof.Machine.execGcmDecrypt value s
  | .attDone => Sys2Proof.Machine.execAttDone s
  | .measurementExtend value => Sys2Proof.Machine.execMeasurementExtend value s
  | .faultPop value => Sys2Proof.Machine.execFaultPop value s
  | .auditRequest value => Sys2Proof.Machine.execAuditRequest value s
  | .auditRun => Sys2Proof.Machine.execAuditRun s
  | .auditComplete signature rate => Sys2Proof.Machine.execAuditComplete signature rate s
  | .auditHaltTimeout => Sys2Proof.Machine.execAuditHaltTimeout s
  | .sliceStart => Sys2Proof.Machine.execSliceStart s
  | .sliceEnd passed => Sys2Proof.Machine.execSliceEnd passed s
  | .injectionArm value => Sys2Proof.Machine.execInjectionArm value s
  | .injectionHoldEnd => Sys2Proof.Machine.execInjectionHoldEnd s
  | .hyperramInit value => Sys2Proof.Machine.execHyperramInit value s
  | .hyperramInitDone failed => Sys2Proof.Machine.execHyperramInitDone failed s
  | .noSlotBooted => Sys2Proof.Machine.execNoSlotBooted s
  | .identityKeyReady => Sys2Proof.Machine.execIdentityKeyReady s
  | .junctionTemperatureChange c reading => Sys2Proof.Machine.execJunctionTemperatureChange c reading s
  | .secondaryDataPacket port => Sys2Proof.Machine.execSecondaryDataPacket port s
  | .fcsError p => Sys2Proof.Machine.execFcsError p s
  | .otherFrame raw => Sys2Proof.Machine.execOtherFrame raw s

end Sys2Proof.Machine
end

