-- ==== Sys2Proof/Safety.lean ====
section
/-! DEFINITION. The terms statements are written in: when an engine starts an instruction, what a command answers, and what one
state shares with another. -/

namespace Sys2Proof.Machine

/-- A command completes: `exec` answers a next state, of which `P` holds. -/
def Completes (i : Instr) (s : State) (P : State → Prop) : Prop := ∃ t, exec i s = .next t ∧ P t

/-- No fault waits to be logged, as between any two steps (R477). -/
abbrev Quiet (s : State) : Prop := s.raised = []

/-- Engine `e` starts instruction `b` now: it runs and waits for nothing, it is the engine that takes the instruction, the ENGINE
value is one the instruction allows, its fields are as its format has them, and its guard is true (R130 to R132, R156). -/
def Starts (w : Allow) (s : State) (e : EngId) (b : KBits) (fields : Bool) : Prop :=
  Quiet s ∧ s.ready e = true ∧ takes e b.engine = true ∧ w.ok e b.engine = true ∧ fields = true ∧ (s.eng e).guard b = true

/-- What a command answers that leaves engine `e` as `x`, gone on to its next instruction, and changes nothing else (R132). -/
def goesOn (s : State) (e : EngId) (x : Engine) : Host.Outcome State Fault Refusal := .next ((s.setEng e x).retire e).flush

/-- Nothing but registers differs. -/
def OnlyRegs (s t : State) : Prop := t = { s with regs := t.regs }

/-- Every byte of memory reads as before. -/
def SameMemory (s t : State) : Prop := ∀ a, t.byteAt a = s.byteAt a

/-- The memory is in its canonical form. -/
def State.memoryOk (s : State) : Prop := Memory.wf s.mem

end Sys2Proof.Machine
end

