-- ==== Sys2Proof/Certificates/Slice0/Obligations.lean ====
section
/-! DEFINITION. The statements for the provers. -/

open Sys2Proof Sys2Proof.Machine

/-! ### The block -/

/-- A step runs the command at the front of the queue on the state with the queue's rest.

On an empty queue the block idles: the counter C, of 64 bits (R394), advances by one nanosecond, and the wheels of the stores turn
(R70; the model's choice, log entries 11 and 215); memory and registers stay.

No step stops: every command completes in every state, and so does an idle step; the device's faults are states of its own. -/
def Obligations.StepRunsFront : Prop :=
  (∀ (c : Instr) (rest : List Instr) (s : State),
    step { s with pending := c :: rest } = exec c { s with pending := rest }) ∧
  (∀ s : State, s.pending = [] → ∃ t, step s = .next t ∧ t.time = (s.time + 1) % 2 ^ 64 ∧ t.mem = s.mem ∧ t.regs = s.regs ∧
    t.cores = s.cores ∧ t.keepers = s.keepers ∧ t.pending = [] ∧ ∀ i < 5, s.stores.wheel.look i 0 ≤ t.stores.wheel.look i 0) ∧
  (∀ s : State, ∃ t, step s = .next t)

/-! ### Scalar, predicate, address and descriptor instructions -/

/-- R139 with its table: Sd from Sa and Sb, or from Sa and the immediate; the engine goes on, and nothing else changes.  A result
for S0 is discarded, as for every write of a scalar register (R127). -/
def Obligations.ScalarResults : Prop :=
  ∀ (e : EngId) (b : KBits) (s : State),
    let x := s.eng e
    let A := x.rs (b.f 44 40)
    let B := x.rs (b.f 39 35)
    let I := b.imm
    let dest (v : Word) := goesOn s e (x.ws (b.f 49 45) v)
    (Starts anyEngine s e b (b.z 34 0) →
      exec (.add e b) s = dest (A + B) ∧ exec (.sub e b) s = dest (A - B) ∧
      exec (.and e b) s = dest (A &&& B) ∧ exec (.or e b) s = dest (A ||| B) ∧ exec (.xor e b) s = dest (A ^^^ B) ∧
      exec (.shl e b) s = dest (A <<< (B.toNat % 32)) ∧ exec (.shr e b) s = dest (A >>> (B.toNat % 32)) ∧
      exec (.sra e b) s = dest (A.sshiftRight (B.toNat % 32)) ∧ exec (.mul e b) s = dest (BitVec.ofNat 32 (A.toNat * B.toNat)) ∧
      exec (.min e b) s = dest (if B.slt A then B else A) ∧ exec (.max e b) s = dest (if A.slt B then B else A)) ∧
    (Starts anyEngine s e b (b.z 39 32) →
      exec (.addi e b) s = dest (A + I) ∧ exec (.andi e b) s = dest (A &&& I) ∧ exec (.ori e b) s = dest (A ||| I) ∧
      exec (.xori e b) s = dest (A ^^^ I) ∧ exec (.shli e b) s = dest (A <<< (I.toNat % 32)) ∧
      exec (.shri e b) s = dest (A >>> (I.toNat % 32)) ∧ exec (.srai e b) s = dest (A.sshiftRight (I.toNat % 32)) ∧
      exec (.muli e b) s = dest (BitVec.ofNat 32 (A.toNat * I.toNat)))

/-- R141 and R148: address registers and descriptor words; addresses wrap at 2^40. -/
def Obligations.AddressAndDescriptorResults : Prop :=
  ∀ (e : EngId) (b : KBits) (s : State),
    let x := s.eng e
    let d := b.f 49 45
    (Starts fetchKeeper s e b (b.z 45 40) → exec (.amovi e b) s = goesOn s e (x.wa (b.f 49 46) (b.ops.extractLsb' 0 40))) ∧
    (Starts fetchKeeper s e b (b.z 36 32) → exec (.aadd e b) s = goesOn s e (x.wa (b.f 49 46)
      (BitVec.ofInt 40 ((x.ra (b.f 45 42)).toNat + (x.rs (b.f 41 37)).toInt + b.imm.toInt)))) ∧
    (Starts coreEngines s e b (b.z 44 40 && b.z 31 0) →
      ∃ v, exec (.dsetw e b) s = goesOn s e (x.wdesc d v) ∧
        ∀ w < 8, descWord v w = if w = b.f 34 32 then x.rs (b.f 39 35) else descWord (x.rdesc d) w) ∧
    (Starts coreEngines s e b (b.z 39 35 && b.z 31 0) →
      exec (.dgetw e b) s = goesOn s e (x.ws d (descWord (x.rdesc (b.f 44 40)) (b.f 34 32)))) ∧
    (Starts coreEngines s e b (b.z 39 0) → exec (.dmov e b) s = goesOn s e (x.wdesc d (x.rdesc (b.f 44 40)))) ∧
    (Starts coreEngines s e b (b.z 44 40 && b.z 34 0) →
      ∃ v, exec (.daddb e b) s = goesOn s e (x.wdesc d v) ∧
        v.extractLsb' 0 40 = BitVec.ofInt 40 (((x.rdesc d).extractLsb' 0 40).toNat + (x.rs (b.f 39 35)).toInt) ∧
        v.extractLsb' 40 216 = (x.rdesc d).extractLsb' 40 216)

/-- R140: CMP and CMPI, whose conditions 6 and 7 are illegal, PLOG and GETN; and NOP, which only goes on.

R132 and R146: an engine that goes on is at the next instruction where no active loop ends here; at the end of the innermost
loop its counter falls by one, and it goes round, or, at zero, the loop is no longer active and the engine goes on without it.  Past
instruction 8191 an engine faults with ILLEGAL_INSTR.  Nothing but the engine's own position, counters and loops changes, and what
it kept for the instruction it has completed is gone. -/
def Obligations.PredicatesAndGoingOn : Prop :=
  (∀ (e : EngId) (b : KBits) (s : State),
    let x := s.eng e
    let holds (cond : Nat) (a c : Word) : Bool :=
      if cond = 0 then a == c else if cond = 1 then a != c else if cond = 2 then a.slt c else if cond = 3 then !a.slt c
      else if cond = 4 then a.ult c else !a.ult c
    let A := x.rs (b.f 43 39)
    (Starts anyEngine s e b (b.z 33 0 && decide (b.f 46 44 ≤ 5)) →
      exec (.cmp e b) s = goesOn s e (x.wp (b.f 49 47) (holds (b.f 46 44) A (x.rs (b.f 38 34))))) ∧
    (Starts anyEngine s e b (b.z 38 32 && decide (b.f 46 44 ≤ 5)) →
      exec (.cmpi e b) s = goesOn s e (x.wp (b.f 49 47) (holds (b.f 46 44) A b.imm))) ∧
    (Quiet s → s.ready e = true → takes e b.engine = true → 6 ≤ b.f 46 44 → ∀ i ∈ [Instr.cmp e b, .cmpi e b],
      exec i s = .next (s.instrFault e codeIllegal).flush) ∧
    (Starts anyEngine s e b (b.z 36 0) →
      exec (.plog e b) s = goesOn s e (x.wp (b.f 49 47)
        ((b.f 40 37).testBit (2 * (x.rp (b.f 46 44)).toNat + (x.rp (b.f 43 41)).toNat)))) ∧
    (Starts anyEngine s e b (b.z 42 0) → exec (.getn e b) s = goesOn s e (x.ws (b.f 49 45) (x.rn (b.f 44 43)))) ∧
    (Starts anyEngine s e b (b.z 49 0) → exec (.nop e 0 b) s = goesOn s e x)) ∧
  (∀ (e : EngId) (s : State),
    let x := s.eng e
    let settled (y : Engine) : Engine := { y with
      wait := .none, withdraw := false, expired := false, got := none, fence := none, loaded := none, stall := none, since := none }
    ((∀ l ∈ x.loops.head?, l.last ≠ x.pc) → x.pc < 8191 →
      s.retire e = s.setEng e (settled { x with pc := x.pc + 1 })) ∧
    ((∀ l ∈ x.loops.head?, l.last ≠ x.pc) → x.pc = 8191 →
      s.retire e = (s.setEng e (settled { x with pc := 8192 })).instrFaultAt e 8191 codeIllegal 8191 0 0) ∧
    (∀ l r, x.loops = l :: r → l.last = x.pc → x.rn l.counter ≠ 1 → l.first ≤ 8191 →
      s.retire e = s.setEng e (settled (x.wn l.counter (x.rn l.counter - 1) |> fun y => { y with pc := l.first }))) ∧
    (∀ l r, x.loops = l :: r → l.last = x.pc → x.rn l.counter = 1 →
      s.retire e = (s.setEng e { x.wn l.counter 0 with loops := r }).retire e))

/-- R130, R131 and R156: an engine passes over the other engine's instruction; an instruction whose ENGINE value or fields are not
its format's faults with ILLEGAL_INSTR, whatever its guard; one whose guard is false only goes on, but LOOP, whose guard acts on its
count (R146); and an engine that does not run, or waits, takes none.

R108, R157, R158 and R426: an instruction fault takes its core, or its keeper, to FAULTED, is logged, and is latched where none is. -/
def Obligations.GuardsAndIllegalInstructions : Prop :=
  (∀ (e : EngId) (n : BitVec 8) (b : KBits) (s : State), Quiet s →
    let x := s.eng e
    let loads : Allow := { both := true, fetch := true, keeper := true }
    let wide : Allow := { both := true, fetch := true }
    let elem (tys : List Nat) (noB : Bool) : Bool :=
      b.z 9 0 && tys.contains (b.f 44 43) && (!noB || b.z 24 16) && !(b.f 15 15 == 1 && !b.z 24 21)
    let rows : Bool := b.z 23 0 && decide (1 ≤ b.tq ∧ b.f 32 31 ≤ 1 ∧ b.f 29 26 ≤ 8)
    let checked (i : Instr × Allow × Bool) : Prop :=
      (s.ready e = false → exec i.1 s = .next s) ∧
      (s.ready e = true → takes e b.engine = false → exec i.1 s = .next (s.retire e).flush) ∧
      (s.ready e = true → takes e b.engine = true → (i.2.1.ok e b.engine = false ∨ i.2.2 = false) →
        exec i.1 s = .next (s.instrFault e codeIllegal).flush)
    checked (.loop e b, anyEngine, b.z 29 16) ∧
    ∀ i ∈ [(Instr.add e b, anyEngine, b.z 34 0), (.sub e b, anyEngine, b.z 34 0), (.and e b, anyEngine, b.z 34 0),
        (.or e b, anyEngine, b.z 34 0), (.xor e b, anyEngine, b.z 34 0), (.shl e b, anyEngine, b.z 34 0), (.shr e b, anyEngine, b.z 34 0),
        (.sra e b, anyEngine, b.z 34 0), (.mul e b, anyEngine, b.z 34 0), (.min e b, anyEngine, b.z 34 0), (.max e b, anyEngine, b.z 34 0),
        (.addi e b, anyEngine, b.z 39 32), (.andi e b, anyEngine, b.z 39 32), (.ori e b, anyEngine, b.z 39 32),
        (.xori e b, anyEngine, b.z 39 32), (.shli e b, anyEngine, b.z 39 32), (.shri e b, anyEngine, b.z 39 32),
        (.srai e b, anyEngine, b.z 39 32), (.muli e b, anyEngine, b.z 39 32),
        (.cmp e b, anyEngine, b.z 33 0 && decide (b.f 46 44 ≤ 5)), (.cmpi e b, anyEngine, b.z 38 32 && decide (b.f 46 44 ≤ 5)),
        (.plog e b, anyEngine, b.z 36 0), (.getn e b, anyEngine, b.z 42 0), (.nop e n b, anyEngine, n == 0 && b.z 49 0),
        (.jmp e b, anyEngine, b.z 49 13), (.halt e b, { both := true, keeper := true }, b.z 49 0),
        (.amovi e b, fetchKeeper, b.z 45 40), (.aadd e b, fetchKeeper, b.z 36 32), (.dsetw e b, coreEngines, b.z 44 40 && b.z 31 0),
        (.dgetw e b, coreEngines, b.z 39 35 && b.z 31 0), (.dmov e b, coreEngines, b.z 39 0), (.daddb e b, coreEngines, b.z 44 40 && b.z 34 0),
        (.ld e b, loads, b.z 40 32), (.dld e b, wide, b.z 40 32), (.st e b, fetchKeeper, b.z 40 32), (.dst e b, fetchOnly, b.z 40 32),
        (.cmpcnt e b, fetchKeeper, b.z 32 28 && decide (b.f 27 25 ≤ 5)), (.fadd e b, fetchKeeper, b.z 32 8),
        (.cas e b, fetchKeeper, b.z 27 8), (.fill e b, fetchOnly, b.z 35 16), (.drain e b, fetchOnly, b.z 35 16),
        (.waitf e b, fetchOnly, b.z 35 16), (.waitd e b, fetchOnly, b.z 35 16), (.swait e b, fetchOnly, b.z 45 0),
        (.arm e b, fetchOnly, armFields b), (.hsend e b, fetchOnly, b.z 49 0), (.hrecv e b, fetchOnly, b.z 44 0),
        (.qrel e b, execOnly, b.z 49 0), (.mma e b, execOnly, taFields b && b.z 25 8), (.reqScalar e b, execOnly, trFields 0 b),
        (.boxd e b, execOnly, b.z 5 0), (.nms e b, execOnly, b.z 11 0), (.statMaxabs e b, execOnly, b.z 19 0),
        (.rearm e b, fetchOnly, armFields b), (.epochReady e b, fetchOnly, b.z 42 0),
        (.epochOpen e b, { keeper := true }, b.z 42 0 && b.engine == 3), (.epochCommit e b, { keeper := true }, b.z 42 0 && b.engine == 3),
        (.epochAbort e b, { keeper := true }, b.z 42 0 && b.engine == 3),
        (.conv e b, execOnly, taFields b && b.z 16 8 && decide (b.f 25 22 ≤ 8) && !(wtOf b == 0 && b.f 25 22 != 0)),
        (.wino e b, execOnly, taFields b && b.z 25 8 && decide (b.tq ≤ 4) && wtOf b != 0 && wtyOf b == 2),
        (.dwconv e b, execOnly, taFields b && decide (b.f 25 22 ≤ 8 ∧ b.f 16 14 ≤ 5) && wtyOf b == 0),
        (.pool e b, execOnly, rows), (.ups e b, execOnly, rows && b.z 25 25),
        (.elemAdd e b, execOnly, elem [0, 1, 2] false), (.elemSub e b, execOnly, elem [0, 1, 2] false),
        (.elemMul e b, execOnly, elem [0, 1, 2] false), (.elemMin e b, execOnly, elem [0, 1, 2] false),
        (.elemMax e b, execOnly, elem [0, 1, 2] false), (.elemAbs e b, execOnly, elem [0, 1, 2] true),
        (.elemNeg e b, execOnly, elem [0, 1, 2] true), (.elemMov e b, execOnly, elem [0, 1, 2] true),
        (.elemSrar e b, execOnly, elem [0] false), (.elemShl e b, execOnly, elem [0] false), (.elemCvtif e b, execOnly, elem [0] true),
        (.elemCvtfi e b, execOnly, elem [1] true), (.elemCvtfb e b, execOnly, elem [1] true), (.elemCvtbf e b, execOnly, elem [2] true),
        (.elemExp2 e b, execOnly, elem [1] false), (.elemRcp e b, execOnly, elem [1] false), (.elemRsqrt e b, execOnly, elem [1] false),
        (.elemRmax e b, execOnly, elem [0, 1, 2] true), (.elemRsum e b, execOnly, elem [0, 1, 2] true),
        (.reqTable e b, execOnly, trFields 1 b), (.reqDynamic e b, execOnly, trFields 2 b), (.reqLoad e b, execOnly, trFields 3 b),
        (.statMse e b, execOnly, b.z 12 0 && decide (b.f 14 13 ≤ 2)),
        (.rot e b, execOnly, b.z 19 0 && b.z 47 43 && decide (b.f 49 48 ≤ 1)),
        (.digestClear e b, execOnly, b.z 49 0), (.digestCheck e b, execOnly, b.f 49 48 == 1 && b.z 42 0)],
      checked i ∧
      (s.ready e = true → takes e b.engine = true → i.2.1.ok e b.engine = true → i.2.2 = true → x.rp b.gp = b.gn →
        exec i.1 s = .next (s.retire e).flush)) ∧
  (∀ (e : EngId) (code : Nat) (s : State), Quiet s → code < 256 → (s.eng e).pc < 8192 → s.log.length < 64 →
    let pc := (s.eng e).pc
    let t := (s.instrFault e code).flush
    let logged (cls unit : Nat) : Prop := t.log = s.log ++
      [{ fault := { code := code, cls := cls, unit := unit, d0 := BitVec.ofNat 32 pc }, seq := s.logSeq, time := s.nt }]
    t.mem = s.mem ∧
    (∀ c : Fin 32, e = .fetch c ∨ e = .execute c → (t.core c).state = 4 ∧ (t.core c).cause = 4 ∧ (t.core c).queues = [] ∧ logged 0 c ∧
      t.bit F.CORE_EVT_FAULT c = true ∧ t.bit F.CORE_FAULT_VALID c = true ∧
      (s.bit F.CORE_FAULT_VALID c = false → t.fld F.CORE_FAULT_CODE c = code ∧ t.fld F.CORE_FAULT_PC c = pc) ∧
      (s.bit F.CORE_FAULT_VALID c = true → t.rd .CORE_FAULT c = s.rd .CORE_FAULT c) ∧
      (∀ d, d ≠ c.val → t.core d = s.core d) ∧ t.keepers = s.keepers) ∧
    (∀ k : Fin 4, e = .keeper k → (t.keeper k).state = 3 ∧ logged 1 k ∧ t.bit F.KEP_FAULT_VALID k = true ∧
      (s.bit F.KEP_FAULT_VALID k = false → t.fld F.KEP_FAULT_CODE k = code ∧ t.fld F.KEP_FAULT_PC k = pc) ∧
      (s.bit F.KEP_FAULT_VALID k = true → t.rd .KEP_FAULT k = s.rd .KEP_FAULT k) ∧
      (∀ j < 4, j ≠ k.val → (s.keeper j).state = 1 → t.bit F.KEP_PEVT_PEER_FAULT j = true) ∧
      (∀ j, j ≠ k.val → t.keeper j = s.keeper j) ∧ t.cores = s.cores))

/-! ### Scalar accesses, control flow and memory-side operations -/

/-- The words of an access hold no stored-bit error and no poison. -/
def Sys2Proof.Machine.State.clean (s : State) (a n : Nat) : Prop :=
  ∀ i < n, s.flips.look (a + 4 * i) 0 = 0 ∧ s.poison.look (a + 4 * i) false = false

/-- Nothing waits on a write of the words of an access: no watch, no late stripe-line (R21), no injection (R489). -/
def Sys2Proof.Machine.State.unwatched (s : State) (a n : Nat) : Prop :=
  ∀ i < n, (∀ j, s.tst.injection = some j → j.addr ≠ a + 4 * i) ∧ (∀ l ∈ s.stores.late, l.fillAddr ≠ a + 4 * i) ∧
    ∀ st, storeOf a = some st → ∀ w ∈ s.stores.watches.look (watchKey st (octetOf st a)) [], w.addr ≠ a + 4 * i

/-- R142, R134 and R135: a compute core's LD reads the word at (Aa + off) mod 2^40 into Sd, and with ENGINE 0b00 leaves it in the
forwarding buffer for the execute engine; DLD reads eight words into Dd.  Beside the engine and the buffer, only the store's
wheel moves on.  Where that buffer is full, the load waits with what it has read (R107), and goes on with it.

R135: the execute engine's LD or DLD takes the oldest forwarding entry where it was loaded by the same instruction, faults
with ILLEGAL_INSTR where it was not, and waits where there is none. -/
def Obligations.LoadResults : Prop :=
  (∀ (c : Fin 32) (wide : Bool) (b : KBits) (s : State),
    let e := EngId.fetch c
    let x := s.eng e
    let n := if wide then 8 else 1
    let a := (BitVec.ofInt 40 ((x.ra (b.f 44 41)).toNat + b.imm.toInt)).toNat
    let i := if wide then Instr.dld e b else Instr.ld e b
    let v : BitVec 256 := descOfWords ((List.range n).map (fun k => s.rawWord (a + 4 * k)))
    let entry : List FwdEntry := if b.engine = 0 then [{ pc := x.pc, value := v }] else []
    Starts { both := true, fetch := true } s e b (b.z 40 32) → 
    (x.loaded = none → s.coreServed a n = true → s.opens a = true → s.portFree a = true → s.clean a n →
      (b.engine = 0 → (s.core c).fwd.length < 16) →
        exec i s = goesOn ((s.turnFor (.core c) a).updCore c (fun k => { k with fwd := k.fwd ++ entry })) e
          (x.wload wide (b.f 49 45) v)) ∧
    (x.loaded = none → s.coreServed a n = true → s.opens a = true → s.portFree a = true → s.clean a n →
      b.engine = 0 → 16 ≤ (s.core c).fwd.length →
        exec i s = .next ((s.turnFor (.core c) a).setEng e { x with
          wait := .blocked (if wide then 0x2A else 0x28) b, loaded := some v }).flush) ∧
    (∀ w, x.loaded = some w → b.engine = 0 → (s.core c).fwd.length < 16 →
        exec i s = goesOn (s.updCore c (fun k => { k with fwd := k.fwd ++ [{ pc := x.pc, value := w }] })) e
          (x.wload wide (b.f 49 45) w))) ∧
  (∀ (c : Fin 32) (wide : Bool) (b : KBits) (s : State),
    let e := EngId.execute c
    let x := s.eng e
    let i := if wide then Instr.dld e b else Instr.ld e b
    Starts { both := true, fetch := true } s e b (b.z 40 32) →
      (∀ f r, (s.core c).fwd = f :: r → f.pc = x.pc →
        exec i s = goesOn (s.updCore c (fun k => { k with fwd := r })) e (x.wload wide (b.f 49 45) f.value)) ∧
      (∀ f r, (s.core c).fwd = f :: r → f.pc ≠ x.pc → exec i s = .next (s.instrFault e codeIllegal).flush) ∧
      ((s.core c).fwd = [] → exec i s = .next (s.block e (if wide then 0x2A else 0x28) b)))

/-- R142 and R69: ST writes Sd, and DST the eight words of Dd, at (Aa + off) mod 2^40; every other byte of memory, every register
and every other core is as before, and the engine goes on. -/
def Obligations.StoreResults : Prop :=
  ∀ (c : Fin 32) (wide : Bool) (b : KBits) (s : State),
    let e := EngId.fetch c
    let x := s.eng e
    let n := if wide then 8 else 1
    let a := mmAddr x b
    let i := if wide then Instr.dst e b else Instr.st e b
    let v (k : Nat) : Word := if wide then descWord (x.rdesc (b.f 49 45)) k else x.rs (b.f 49 45)
    Starts { fetch := true } s e b (b.z 40 32) → s.coreServed a n = true → s.opens a = true → s.portFree a = true → s.unwatched a n → x.pc < 8191 →
    (∀ l ∈ x.loops.head?, l.last ≠ x.pc) →
      Completes i s (fun t =>
        (∀ k < n, ∀ j < 4, t.byteAt (a + 4 * k + j) = byteOf (v k) j) ∧
        (∀ y, y < a ∨ a + 4 * n ≤ y → t.byteAt y = s.byteAt y) ∧
        t.regs = s.regs ∧ (∀ d, d ≠ c.val → t.core d = s.core d) ∧ t.keepers = s.keepers ∧
        (t.eng e).pc = x.pc + 1 ∧ (t.eng e).s = x.s ∧ (t.eng e).a = x.a ∧ (t.eng e).p = x.p ∧ (t.eng e).d = x.d)

/-- R66, R68 and R143: a compute core's access that is misaligned, outside its four stores or in a band that is not ACTIVE faults
with ADDR_RANGE at its address, and nothing of it is performed.

R143 and R4: a keeper's LD and ST reach the stores, a control register as one whole word in a listed block, and HyperRAM that
answers; its LD reaches the boot flash too, where its ST faults.  A write of a register acts after the instruction has completed (the
model's choice, log entry 189). -/
def Obligations.RefusedAndKeeperAccesses : Prop :=
  (∀ (c : Fin 32) (b : KBits) (s : State),
    let e := EngId.fetch c
    let a := mmAddr (s.eng e) b
    (∀ i ∈ [(Instr.ld e b, 1), (Instr.dld e b, 8)], Starts { both := true, fetch := true } s e b (b.z 40 32) →
      (s.eng e).loaded = none → s.coreServed a i.2 = false → exec i.1 s = .next (s.addrFault e a).flush) ∧
    (∀ i ∈ [(Instr.st e b, 1), (Instr.dst e b, 8)], Starts { fetch := true } s e b (b.z 40 32) →
      s.coreServed a i.2 = false → exec i.1 s = .next (s.addrFault e a).flush)) ∧
  (∀ (k : Fin 4) (b : KBits) (s : State),
    let e := EngId.keeper k
    let x := s.eng e
    let a := mmAddr x b
    Starts { both := true, fetch := true, keeper := true } s e b (b.z 40 32) →
      (s.storeOk a 1 = true → s.opens a = true → s.portFree a = true → s.clean a 1 →
        exec (.ld e b) s = goesOn (s.turnFor (.sys 0 k) a) e (x.ws (b.f 49 45) (s.rawWord a)) ∧
        exec (.st e b) s = .next (((s.turnFor (.sys 0 k) a).putWord a (x.rs (b.f 49 45))).retire e).flush) ∧
      (∀ v t, ctrlBase ≤ a → regServed (a - ctrlBase) = true → s.regRead (a - ctrlBase) = (some v, t) →
        exec (.ld e b) s = .next ((t.updEng e (fun y => y.ws (b.f 49 45) v)).retire e).flush) ∧
      (ctrlBase ≤ a → regServed (a - ctrlBase) = true →
        exec (.st e b) s = .next ((s.retire e).regWrite k (a - ctrlBase) (x.rs (b.f 49 45))).flush) ∧
      (a % 4 = 0 → s.inHyper a 4 = true → exec (.ld e b) s = goesOn s e (x.ws (b.f 49 45) (s.rawWord a)) ∧
        exec (.st e b) s = .next ((s.putWord a (x.rs (b.f 49 45))).retire e).flush) ∧
      (a % 4 = 0 → flashBase ≤ a → a < flashBase + 0x10000000 →
        exec (.ld e b) s = goesOn s e (x.ws (b.f 49 45) (s.rawWord a)) ∧ exec (.st e b) s = .next (s.addrFault e a).flush))

/-- R145 to R147 and R155: JMP goes on at its target and leaves the loops that do not hold it; LOOP with a count begins its body
with Nn holding the count, and with a count of zero, or a false guard (R130), goes on as though its end instruction had completed; a
LOOP that R147 forbids faults, whatever its guard; HALT stops its engine, and a keeper enters HALTED. -/
def Obligations.ControlFlow : Prop :=
  ∀ (e : EngId) (b : KBits) (s : State),
    let x := s.eng e
    let count := x.rs (b.f 47 43) + BitVec.ofNat 32 (b.f 15 0)
    (Starts anyEngine s e b (b.z 49 13) →
      exec (.jmp e b) s = .next (s.setEng e { x with
        pc := b.f 12 0, wait := .none
        loops := x.loops.dropWhile (fun l => !(decide (l.first ≤ b.f 12 0) && decide (b.f 12 0 ≤ l.last))) })) ∧
    (Starts anyEngine s e b (b.z 29 16) → loopIllegal x x.pc b = false →
      (count ≠ 0 → exec (.loop e b) s = .next (s.setEng e { x.wn (b.f 49 48) count with
        pc := x.pc + 1, loops := { counter := b.f 49 48, first := x.pc + 1, last := b.f 42 30 } :: x.loops })) ∧
      (count = 0 → exec (.loop e b) s = .next (s.completeAt e (b.f 42 30)).flush)) ∧
    (Quiet s → s.ready e = true → takes e b.engine = true → anyEngine.ok e b.engine = true → b.z 29 16 = true →
      (loopIllegal x x.pc b = true → exec (.loop e b) s = .next (s.instrFault e codeIllegal).flush) ∧
      (loopIllegal x x.pc b = false → x.guard b = false → exec (.loop e b) s = .next (s.completeAt e (b.f 42 30)).flush)) ∧
    (∀ c : Fin 32, e = .fetch c ∨ e = .execute c → Starts { both := true, keeper := true } s e b (b.z 49 0) → x.pc < 8191 →
      (∀ l ∈ x.loops.head?, l.last ≠ x.pc) →
      let other := if e = .fetch c then (s.core c).exec else (s.core c).fetch
      Completes (.halt e b) s (fun t =>
        (t.eng e).stopped = true ∧ (t.eng e).pc = x.pc + 1 ∧ t.mem = s.mem ∧
        (other.stopped = false → (t.core c).state = 2 ∧ t.regs = s.regs) ∧
        (other.stopped = true → (t.core c).state = 3 ∧ (t.core c).cause = 1 ∧ t.bit F.CORE_EVT_HALTED c = true))) ∧
    (∀ k : Fin 4, e = .keeper k → Starts { both := true, keeper := true } s e b (b.z 49 0) → x.pc < 8191 →
      (∀ l ∈ x.loops.head?, l.last ≠ x.pc) →
      Completes (.halt e b) s (fun t => (t.keeper k).state = 2 ∧ (t.eng e).pc = x.pc + 1 ∧ t.mem = s.mem ∧ t.regs = s.regs))

/-- R77, R81 and R152: CMPCNT that does not block, FADD and CAS on a clean word: Sd is the old word, Pd the flag, and the word
changes as the operation says and where it says so.  CMPCNT with blk set does the same where its condition holds, and parks a
watch where it does not and the octet's list has room (R78). -/
def Obligations.MemorySideResults : Prop :=
  ∀ (e : EngId) (b : KBits) (s : State),
    let x := s.eng e
    let a := msAddr x b
    let w := s.rawWord a
    let B := x.rs (b.f 37 33)
    let delta : BitVec 16 := b.ops.extractLsb' 8 16
    let flag := condHolds (b.f 27 25) w B
    let u := s.turnFor (requester e) a
    let out (t : State) (f : Bool) := goesOn t e ((x.ws (b.f 49 45) w).wp (b.f 44 42) f)
    s.msOk a = true → s.opens a = true → s.portFree a = true → s.clean a 1 →
    (Starts fetchKeeper s e b (b.z 32 28 && decide (b.f 27 25 ≤ 5)) →
      (b.f 24 24 = 0 ∨ flag = true →
        exec (.cmpcnt e b) s = out (if flag ∧ delta ≠ 0 then u.putWord a (w + delta.signExtend 32) else u) flag) ∧
      (b.f 24 24 = 1 → flag = false → (∀ st, storeOf a = some st →
          (s.stores.watches.look (watchKey st (octetOf st a)) []).length < 8) →
        Completes (.cmpcnt e b) s (fun t => (t.eng e).wait = .parked 0x50 b ∧ t.mem = s.mem ∧
          ∃ st, storeOf a = some st ∧ t.stores.watches.look (watchKey st (octetOf st a)) [] =
            s.stores.watches.look (watchKey st (octetOf st a)) [] ++ [{ e := e, addr := a, cond := b.f 27 25, a := B, delta := delta }]))) ∧
    (Starts fetchKeeper s e b (b.z 32 8) → exec (.fadd e b) s = out (u.putWord a (w + B)) true) ∧
    (Starts fetchKeeper s e b (b.z 27 8) →
      exec (.cas e b) s = out (if w = B then u.putWord a (x.rs (b.f 32 28)) else u) (w == B))

/-! ### Slots, streams, chains and epochs -/

/-- The instruction an engine is at is not 8191 and ends no active loop. -/
def Sys2Proof.Machine.Straight (s : State) (e : EngId) : Prop :=
  (s.eng e).pc < 8191 ∧ ∀ l ∈ (s.eng e).loops.head?, l.last ≠ (s.eng e).pc

/-- A counter of a register has counted once, up to its largest value. -/
def Sys2Proof.Machine.Counted (f : RegField) (i : Nat) (s t : State) : Prop :=
  t.fld f i = min (s.fld f i + 1) (2 ^ (f.hi - f.lo + 1) - 1)

/-- R150 and R151: FILL adds S + imm to the fill word and DRAIN to the drain word, once the writes, or the reads, that the core's streams
have issued are done, and wait for those that are not (the model's choice of what is issued, log entry 168); WAITF
and WAITD go on, and clear their ring's taint (R222), where the word has reached S + imm in the order of R77, and else park a
watch (R78).  An entry that is not valid, or a word that is not served, faults with ADDR_RANGE (R215). -/
def Obligations.SlotInstructions : Prop :=
  ∀ (c : Fin 32) (b : KBits) (s : State),
    let e := EngId.fetch c
    let x := s.eng e
    let r := b.f 49 46
    let slot := (x.rs (b.f 45 41)).toNat
    let g := s.ring c r
    let fillWord := (g.base + slot * g.stride) % 2 ^ 40
    let v := x.rs (b.f 40 36) + BitVec.ofNat 32 (b.f 15 0)
    Starts { fetch := true } s e b (b.z 35 16) →
      (∀ i ∈ [(Instr.fill e b, fillWord, true, (0x48 : BitVec 8)), (Instr.drain e b, fillWord + 4, false, 0x49)],
        s.slotOk g slot i.2.1 = true → s.opens i.2.1 = true →
          let issued := s.issued c i.2.2.1
          ((x.fence = none ∧ s.settleAll c = s ∧ issued = []) ∨ (∃ l, x.fence = some l ∧
              ∀ p ∈ l, ((s.core c).stream p.1).cur = none ∨ s.rd .STR_ACC c p.1 ≠ p.2) →
            s.portFree i.2.1 = true → s.clean i.2.1 1 →
            exec i.1 s = .next (((s.turnFor (.core c) i.2.1).putWord i.2.1 (s.rawWord i.2.1 + v)).retire e).flush) ∧
          (x.fence = none → s.settleAll c = s → issued ≠ [] →
            exec i.1 s = .next (s.setEng e { x with wait := .blocked i.2.2.2 b, fence := some issued }))) ∧
      (∀ i ∈ [(Instr.waitf e b, fillWord, false), (Instr.waitd e b, fillWord + 4, true)],
        s.slotOk g slot i.2.1 = true → s.opens i.2.1 = true → s.portFree i.2.1 = true → s.clean i.2.1 1 →
          ((s.rawWord i.2.1 - v).toNat < 2 ^ 31 →
            exec i.1 s = .next (((s.turnFor (.core c) i.2.1).taint c i.2.2 r false).retire e).flush) ∧
          (2 ^ 31 ≤ (s.rawWord i.2.1 - v).toNat → ∀ st, storeOf i.2.1 = some st →
            (s.stores.watches.look (watchKey st (octetOf st i.2.1)) []).length < 8 →
            Completes i.1 s (fun t => (∃ op, (t.eng e).wait = .parked op b) ∧ t.mem = s.mem ∧
              t.stores.watches.look (watchKey st (octetOf st i.2.1)) [] =
                s.stores.watches.look (watchKey st (octetOf st i.2.1)) [] ++
                  [{ e := e, addr := i.2.1, cond := 4, a := v, delta := 0 }]))) ∧
      (∀ i ∈ [(Instr.fill e b, fillWord), (Instr.drain e b, fillWord + 4), (Instr.waitf e b, fillWord), (Instr.waitd e b, fillWord + 4)],
        s.slotOk g slot i.2 = false → exec i.1 s = .next (s.addrFault e i.2).flush)

/-- R149, R203 and R205 to R208: ARM gives its arming to an idle stream whose queue is free, and else waits; REARM does so too, and
leaves its arming in the shadow of a stream that is busy; an arming with a zero extent completes at once, one over the shape limits
only raises SHAPE_OVER, and one that R205 forbids faults; SWAIT waits for a stream that is idle with no shadow.  A completed arming
with no shadow leaves its stream idle and holding no queue.  Memory is as it was. -/
def Obligations.StreamArmings : Prop :=
  ∀ (c : Fin 32) (b : KBits) (s : State),
    let e := EngId.fetch c
    let a := armingOf (s.eng e) b
    let k := b.f 49 46
    let st := (s.core c).stream k
    (Starts { fetch := true } s e b (armFields b) → Straight s e → s.armOk a = true → s.armOver c a = false →
      (st.cur = none → st.shadow = none → a.zero = false → s.queueFree c k a = true → ∀ i ∈ [Instr.arm e b, .rearm e b],
        Completes i s (fun t =>
          (∃ y, ((t.core c).stream k).cur = some y ∧ y.q = a.q ∧ y.mode = a.mode ∧ y.dt = a.dt ∧ y.dx = a.dx ∧ y.pc = a.pc) ∧
          ((t.core c).stream k).shadow = none ∧ a.q ∈ ((t.core c).stream k).holds ∧ ((t.core c).stream k).entry = 0 ∧
          (t.eng e).pc = (s.eng e).pc + 1 ∧ t.mem = s.mem)) ∧
      (st.cur ≠ none ∨ st.shadow ≠ none ∨ (a.zero = false ∧ s.queueFree c k a = false) →
        exec (.arm e b) s = .next (s.block e 0x40 b)) ∧
      (st.cur = none → st.shadow = none → a.zero = true → ∀ i ∈ [Instr.arm e b, .rearm e b],
        Completes i s (fun t => (t.core c).stream k = {} ∧ (t.core c).queues = (s.core c).queues ∧
          t.rd .STR_ARMS c k = s.rd .STR_ARMS c k + 1 ∧ (t.eng e).pc = (s.eng e).pc + 1 ∧ t.mem = s.mem)) ∧
      (st.cur ≠ none → st.shadow = none →
        Completes (.rearm e b) s (fun t => ((t.core c).stream k).cur = st.cur ∧ ((t.core c).stream k).shadow = some a ∧
          t.regs = s.regs ∧ (t.eng e).pc = (s.eng e).pc + 1 ∧ t.mem = s.mem)) ∧
      (st.cur ≠ none → st.shadow ≠ none →
        Completes (.rearm e b) s (fun t => ((t.core c).stream k).shadow = some a ∧ t.bit F.SLOT_EVT_REARM_OVER c = true ∧
          t.mem = s.mem))) ∧
    (Starts { fetch := true } s e b (armFields b) → ∀ i ∈ [Instr.arm e b, .rearm e b],
      (s.armOk a = false → exec i s = .next (s.instrFault e codeDescInvalid).flush) ∧
      (s.armOk a = true → s.armOver c a = true → exec i s = .next ((s.raiseShape c (s.eng e).pc).retire e).flush)) ∧
    (Starts { fetch := true } s e b (b.z 45 0) →
      (st.cur = none → st.shadow = none → exec (.swait e b) s = .next (s.retire e).flush) ∧
      (st.cur ≠ none ∨ st.shadow ≠ none → exec (.swait e b) s = .next (s.block e 0x42 b))) ∧
    (∀ (j : Fin 16) (y : Arming), s.streamsRun c = true → ((s.core c).stream j).cur = some y →
      y.total ≤ ((s.core c).stream j).entry → ((s.core c).stream j).outBuf = [] → ((s.core c).stream j).taken = none →
      ((s.core c).stream j).shadow = none → Quiet s →
        Completes (.streamArmingComplete c j) s (fun t => (t.core c).stream j = {} ∧ t.mem = s.mem ∧ t.regs = s.regs ∧
          ∀ d, d ≠ c.val → t.core d = s.core d))

/-- R119, R120 and R153: HSEND copies the oldest unsent tile to the successor's skid buffer, waits while that is full, and only goes
on where there is no successor; it waits too while every tile is sent; HRECV takes the tile its tag expects from the skid buffer into Q0, or, with SOURCE local or only
later tiles there, from the weight store, and expects the next one; it waits while the buffer is empty, and while Q0 has no room; QREL releases Q0's oldest unreleased tile, or waits
for one. -/
def Obligations.ChainInstructions : Prop :=
  ∀ (c : Fin 32) (b : KBits) (s : State),
    let e := EngId.fetch c
    let n := s.fld F.CHAIN_CFG_NEXT c
    let d := Desc.of ((s.eng e).rdesc (b.f 49 45))
    let tag := s.rd .CHAIN_TAG c
    let size := (chainTile d.ty).getD 1024
    let at_ := d.base + tag.toNat % 4096 * d.str1
    let inStore := (List.range size).map (fun i => s.rawWord (at_ + 4 * i))
    let stored : Prop := s.opens at_ = true ∧ (∀ i < size / 64, s.storeOk (at_ + 256 * i) 64 = true) ∧ s.clean at_ size
    let received (words : List Word) (poison : Bool) (t : State) : Prop :=
      (∃ v, (t.core c).tiles = (s.core c).tiles ++ [v] ∧ v.words = words ∧ v.poison = poison ∧ v.tag = tag ∧ v.sent = false ∧
        v.released = false) ∧
      t.rd .CHAIN_TAG c = (if tag.toNat % 4096 + 1 < d.e0 then tag + 1 else ((tag >>> 12) + 1) <<< 12) ∧ t.mem = s.mem ∧
      (t.eng e).pc = (s.eng e).pc + 1
    (Starts { fetch := true } s e b (b.z 49 0) →
      (s.hasNext c = false → exec (.hsend e b) s = .next (s.retire e).flush) ∧
      (∀ u, s.hasNext c = true → (s.core c).tiles.find? (fun t => !t.sent) = some u → s.bit F.CHAIN_CFG_MEMBER n = true →
        ((s.core n).skid.length < 2 → s.auditRuns n = false → n ≠ c.val → Straight s e →
          Completes (.hsend e b) s (fun t => (t.core n).skid = (s.core n).skid ++ [u] ∧
            (∀ v ∈ (t.core c).tiles, v.id = u.id → v.sent = true) ∧ t.regs = s.regs ∧ t.mem = s.mem ∧
            (t.eng e).pc = (s.eng e).pc + 1)) ∧
        (2 ≤ (s.core n).skid.length → exec (.hsend e b) s = .next ((s.block e 0x58 b).startStall e))) ∧
      (s.hasNext c = true → (∀ u ∈ (s.core c).tiles, u.sent = true) → exec (.hsend e b) s = .next (s.block e 0x58 b))) ∧
    (Starts { fetch := true } s e b (b.z 44 0) → d.chainOk = true → (s.core c).room 0 size = false →
      exec (.hrecv e b) s = .next (s.block e 0x59 b)) ∧
    (Starts { fetch := true } s e b (b.z 44 0) → d.chainOk = true → (s.core c).room 0 ((chainTile d.ty).getD 1024) = true →
      (∀ u r, s.bit F.CHAIN_CFG_SOURCE c = false → (s.core c).skid = u :: r → u.tag = tag → Straight s e →
        Completes (.hrecv e b) s (received u.words u.poison)) ∧
      (s.bit F.CHAIN_CFG_SOURCE c = true → Straight s e → stored → Completes (.hrecv e b) s (received inStore false)) ∧
      (s.bit F.CHAIN_CFG_SOURCE c = false → (∃ u ∈ (s.core c).skid, (u.tag - tag).toNat < 2 ^ 31) → (∀ u ∈ (s.core c).skid, u.tag ≠ tag) →
        (∀ k < 16, ((s.core c).stream k).cur = none) →
        Straight s e → stored → Completes (.hrecv e b) s (fun t => received inStore false t ∧ Counted F.CHAIN_LOCAL_CNT_COUNT c s t ∧
          t.bit F.CORE_EVT_CHAIN_LOCAL c = true)) ∧
      (s.bit F.CHAIN_CFG_SOURCE c = false → (s.core c).skid = [] → Completes (.hrecv e b) s (fun t => (t.eng e).wait = .blocked 0x59 b ∧ t.mem = s.mem ∧ t.regs = s.regs))) ∧
    (Starts { exec := true } s (.execute c) b (b.z 49 0) →
      (∀ u, (s.core c).tiles.find? (fun t => !t.released) = some u →
        exec (.qrel (.execute c) b) s = .next ((s.releaseTile c u.id).retire (.execute c)).flush) ∧
      ((∀ u ∈ (s.core c).tiles, u.released = true) → exec (.qrel (.execute c) b) s = .next (s.block (.execute c) 0x5A b)))

/-- R121 and R122: a stall is counted and latched, once; CHAIN_CUT takes its core out of its chain, with an empty skid buffer, and joins
its neighbours, the first of which becomes the head where the core was it; without a stall not yet counted, or a chain, neither does
anything. -/
def Obligations.ChainEvents : Prop :=
  ∀ (c : Fin 32) (s : State), Quiet s →
    let pred := s.fld F.CHAIN_CFG_PRED c
    let next := s.fld F.CHAIN_CFG_NEXT c
    (s.stalled c = true → s.underAudit next = false →
      Completes (.chainStall c) s (fun t => Counted F.CHAIN_STALL_CNT_COUNT c s t ∧ t.bit F.CORE_EVT_CHAIN_STALL c = true ∧
        t.mem = s.mem ∧ t.stalled c = false ∧ (∀ d, d ≠ c.val → t.core d = s.core d) ∧ t.core c = { s.core c with
          fetch := { (s.core c).fetch with stall := (s.core c).fetch.stall.map (fun v => (v.1, true)) } })) ∧
    (s.stalled c = false → exec (.chainStall c) s = .next s) ∧
    (s.bit F.CHAIN_CFG_MEMBER c = false → s.underAudit c = false → exec (.chainCut c) s = .next s) ∧
    (s.bit F.CHAIN_CFG_MEMBER c = true → s.underAudit c = false → pred ≠ c.val → next ≠ c.val → pred ≠ next →
      Completes (.chainCut c) s (fun t =>
        t.bit F.CHAIN_CFG_MEMBER c = false ∧ t.bit F.CORE_EVT_CUT c = true ∧ (t.core c).skid = [] ∧ t.mem = s.mem ∧
        (s.bit F.CHAIN_CFG_PRED_VALID c = true → s.bit F.CHAIN_CFG_NEXT_VALID c = true →
          t.fld F.CHAIN_CFG_NEXT pred = next ∧ t.fld F.CHAIN_CFG_PRED next = pred ∧ t.bit F.CHAIN_CFG_NEXT_VALID pred = true) ∧
        (s.bit F.CHAIN_CFG_PRED_VALID c = true → s.bit F.CHAIN_CFG_NEXT_VALID c = false →
          t.bit F.CHAIN_CFG_NEXT_VALID pred = false) ∧
        (s.bit F.CHAIN_CFG_PRED_VALID c = false → s.bit F.CHAIN_CFG_NEXT_VALID c = true →
          t.bit F.CHAIN_CFG_PRED_VALID next = false ∧ t.bit F.CHAIN_CFG_SOURCE next = true)))

/-- R154, R286 and R287: OPEN from IDLE takes the epoch's number and clears its masks; READY of a named core with that number sets its
bit, and any other is counted as stray; COMMIT from OPEN while an output runs leaves the epoch COMMITTED; ABORT frees every
slot of the epoch; an operation that the state does not allow sets EPOCH_REJECT. -/
def Obligations.EpochOperations : Prop :=
  ∀ (k : Fin 4) (c : Fin 32) (b : KBits) (s : State),
    let e := EngId.keeper k
    let v (f : EngId) := (s.eng f).rs (b.f 47 43)
    (Starts { keeper := true } s e b (b.z 42 0 && b.engine == 3) → Straight s e →
      (s.epochState = 0 → Completes (.epochOpen e b) s (fun t => t.epochState = 1 ∧ t.rd .EPOCH_NUM = v e ∧
        t.rd .EPOCH_CORES = 0 ∧ t.rd .EPOCH_READY = 0 ∧ t.fld F.KNT_STATUS_WAITED = 0 ∧ t.mem = s.mem ∧ t.cores = s.cores)) ∧
      (s.epochState ≠ 0 → Completes (.epochOpen e b) s (fun t => t.epochState = s.epochState ∧ t.bit F.KNT_EVT_EPOCH_REJECT = true ∧
        t.rd .EPOCH_NUM = s.rd .EPOCH_NUM ∧ t.mem = s.mem)) ∧
      (s.epochState = 1 → s.outputOn = true → (∀ x < 2, s.streamChecks x = true) →
        Completes (.epochCommit e b) s (fun t => t.epochState = 2 ∧ (∀ i < 32, t.slotState i = s.slotState i) ∧ t.mem = s.mem ∧
          t.cores = s.cores)) ∧
      (s.epochState = 1 ∨ s.epochState = 2 →
        Completes (.epochAbort e b) s (fun t => t.epochState = 0 ∧
          (∀ i < 32, t.slotState i = if i ∈ s.epochSlots then 0 else s.slotState i) ∧ t.mem = s.mem ∧ t.cores = s.cores))) ∧
    (Starts { fetch := true } s (.fetch c) b (b.z 42 0) → Straight s (.fetch c) →
      let mine := (s.epochState = 1 ∨ s.epochState = 2) ∧ v (.fetch c) = s.rd .EPOCH_NUM ∧ (s.fld F.EPOCH_CORES_CORES).testBit c = true
      (mine → Completes (.epochReady (.fetch c) b) s (fun t => (t.fld F.EPOCH_READY_READY).testBit c = true ∧
        t.fld F.EPOCH_STRAY_COUNT = s.fld F.EPOCH_STRAY_COUNT ∧ t.mem = s.mem)) ∧
      (¬ mine → Completes (.epochReady (.fetch c) b) s (fun t => Counted F.EPOCH_STRAY_COUNT 0 s t ∧
        t.rd .EPOCH_READY = s.rd .EPOCH_READY ∧ t.mem = s.mem)))

/-! ### The matrix, vector, requantising and digest units -/

/-- Saturation to 32 bits (R250). -/
def Sys2Proof.Machine.held32 (x : Int) : Int := if x < -2147483648 then -2147483648 else if 2147483647 < x then 2147483647 else x

/-- A matrix instruction of plan `m` passes its checks (R166 to R173, R179). -/
def Sys2Proof.Machine.MayIssue (s : State) (c : Nat) (b : KBits) (m : MatOp) : Prop :=
  (s.core c).matRun = none ∧ m.d.inputOk = true ∧ m.d.over (s.core c).limits = false ∧ m.d.e0 ≠ 0 ∧ m.d.e2 ≠ 0 ∧
  m.d.frameOk = true ∧ m.d.bankOk m.frameRows = true ∧ m.ok = true ∧ (m.wty = 1 → b.trow % 2 = 0) ∧
  (wtOf b ≠ 0 → relOf b = false → (s.core c).tilesFit (wtOf b == 2) m.wty m.tiles = true)

/-- A matrix instruction of plan `m` has passed its checks and takes the frame `f` (R166 to R173, R179). -/
def Sys2Proof.Machine.Issues (s : State) (c : Nat) (b : KBits) (m : MatOp) (f : List (List (List Int))) (p : Bool) (u : State) : Prop :=
  MayIssue s c b m ∧ s.takeFrame c b.tq m.frameRows m.d = (.frame f p, u)

/-- Q0 holds the tiles that NEXT or REWIND takes: `l`, in order, each of the size of its weight type (R104, R179). -/
def Sys2Proof.Machine.Supplied (s : State) (c : Nat) (b : KBits) (wty : Nat) (l : List Tile) : Prop :=
  wtOf b ≠ 0 ∧ ((s.core c).tiles.map (fun t => t.id)).Pairwise (fun i j => i < j) ∧
  (∃ r, (s.core c).ahead (if wtOf b = 2 then 0 else (s.core c).loadPtr) = l ++ r) ∧ ∀ t ∈ l, t.words.length = tileSize wty

/-- Q0 holds the tiles that the steps left of an instruction under way take: `l`, in order, each of the size of its weight type (R104,
R179, R180). -/
def Sys2Proof.Machine.Arrived (s : State) (c : Nat) (b : KBits) (wty : Nat) (l : List Tile) : Prop :=
  wtOf b ≠ 0 ∧ ((s.core c).tiles.map (fun t => t.id)).Pairwise (fun i j => i < j) ∧
  (∃ r, (s.core c).ahead (s.core c).loadPtr = l ++ r) ∧ ∀ t ∈ l, t.words.length = tileSize wty

/-- R179, R181, R182 and R250: MMA and CONV.  Output channel o of position p becomes the sum over taps and input channels of
weight × operand, saturated after each tap, starting from the accumulator with acc = 1 and from zero without; with I4 weights
channels 64 to 127 lie in the row above.  The weights are the active plane's under KEEP, and else those of the next tiles of
Q0.  A CONV whose first steps are done goes on with the tiles that have arrived since (R180).  Rows the instruction does not
write, memory and registers are as before. -/
def Obligations.MatrixSums : Prop :=
  ∀ (c : Fin 32) (b : KBits) (s u : State) (f : List (List (List Int))) (p : Bool) (W : Nat → List Word),
    let e := EngId.execute c
    let x := s.eng e
    (∀ v ∈ [(Instr.mma e b, mmaPlan x b, (1, 1, 1), taFields b && b.z 25 8),
        (Instr.conv e b, convPlan x b, (b.f 25 22 + 1, b.f 21 20 + 1, b.f 19 17 + 1),
          taFields b && b.z 16 8 && decide (b.f 25 22 ≤ 8) && !(wtOf b == 0 && b.f 25 22 != 0))],
      let m := v.2.1
      let (kw, sx, dil) := v.2.2.1
      let out (row col : Nat) (o pos : Nat) : Int := (List.range kw).foldl (fun a j =>
        held32 ((if b.tadd = true ∨ 0 < j then a else 0) +
          ((List.range m.d.e2).map (fun ch => tileWeight m.wty (W j) ch o * frameAt f 0 ch (pos * sx + j * dil))).sum))
        (s.accAt c row col)
      Starts { exec := true } s e b v.2.2.2 → Straight s e → Issues s c b m f p u →
      ((∃ pl, wtOf b = 0 ∧ (s.core c).plane = some pl ∧ pl.wty = m.wty ∧ kw = 1 ∧ W 0 = pl.words) ∨
        (∃ l, Supplied s c b m.wty l ∧ l.length = kw ∧ ∀ j < kw, some (W j) = (l[j]?).map (fun t => t.words))) →
      Completes v.1 s (fun t =>
        (m.wty ≠ 1 → ∀ pos < m.e, ∀ o < 64, t.accAt c (b.trow + pos) o = out (b.trow + pos) o o pos) ∧
        (m.wty = 1 → ∀ pos < m.e, ∀ o < 64,
          t.accAt c (b.trow + 2 * pos) o = out (b.trow + 2 * pos) o o pos ∧
          t.accAt c (b.trow + 2 * pos + 1) o = out (b.trow + 2 * pos + 1) o (64 + o) pos) ∧
        (∀ r < 512, r ∉ m.rows → t.accRow c r = s.accRow c r) ∧ (t.core c).matRun = none ∧ (t.eng e).pc = x.pc + 1 ∧
        t.regs = s.regs ∧ t.mem = s.mem ∧ ∀ d, d ≠ c.val → t.core d = s.core d)) ∧
    (let m := convPlan x b
     let kw := b.f 25 22 + 1
     ∀ (st : Nat) (l : List Tile), Starts { exec := true } s e b (taFields b && b.z 16 8 && decide (b.f 25 22 ≤ 8) &&
        !(wtOf b == 0 && b.f 25 22 != 0)) → Straight s e →
      (s.core c).matRun = some ⟨f, p, st⟩ → 1 ≤ st → st < kw → m.ok = true → Arrived s c b m.wty l → l.length = kw - st →
      (∀ j < kw - st, some (W j) = (l[j]?).map (fun t => t.words)) →
      let out (row col o pos : Nat) : Int := (List.range (kw - st)).foldl (fun a j =>
        held32 (a + ((List.range m.d.e2).map (fun ch =>
          tileWeight m.wty (W j) ch o * frameAt f 0 ch (pos * (b.f 21 20 + 1) + (st + j) * (b.f 19 17 + 1)))).sum)) (s.accAt c row col)
      Completes (.conv e b) s (fun t =>
        (m.wty ≠ 1 → ∀ pos < m.e, ∀ o < 64, t.accAt c (b.trow + pos) o = out (b.trow + pos) o o pos) ∧
        (m.wty = 1 → ∀ pos < m.e, ∀ o < 64,
          t.accAt c (b.trow + 2 * pos) o = out (b.trow + 2 * pos) o o pos ∧
          t.accAt c (b.trow + 2 * pos + 1) o = out (b.trow + 2 * pos + 1) o (64 + o) pos) ∧
        (∀ r < 512, r ∉ m.rows → t.accRow c r = s.accRow c r) ∧ (t.core c).matRun = none ∧ (t.eng e).pc = x.pc + 1 ∧
        t.regs = s.regs ∧ t.mem = s.mem))

/-- R170, R183, R184 and R253: DWCONV, whose step t reads tap block tap0 + t of one diagonal tile; and WINO, whose step 4 ξ + η adds
its products, weighted by A^T, into the four rows of each output tile, in one go or from the step where it waited (R180). -/
def Obligations.DepthwiseAndWinograd : Prop :=
  ∀ (c : Fin 32) (b : KBits) (s u : State) (f : List (List (List Int))) (p : Bool),
    let e := EngId.execute c
    let x := s.eng e
    Straight s e →
    (let m := dwPlan x b
     Starts { exec := true } s e b (taFields b && decide (b.f 25 22 ≤ 8 ∧ b.f 16 14 ≤ 5) && wtyOf b == 0) → Issues s c b m f p u →
      ∀ tile : Tile, tile.words.length = 1024 → (Supplied s c b 0 [tile] ∨ (wtOf b = 0 ∧
          ((s.core c).tiles.map (fun t => t.id)).Pairwise (fun i j => i < j) ∧ tile ∈ (s.core c).tiles ∧
          (s.core c).lastTaken = some tile.id ∧ tile.released = false)) →
        Completes (.dwconv e b) s (fun t =>
          (∀ pos < m.e, ∀ o < 64, t.accAt c (b.trow + pos) o =
            (List.range (b.f 25 22 + 1)).foldl (fun a j => held32 ((if b.tadd = true ∨ 0 < j then a else 0) +
              ((List.range m.d.e2).map (fun ch => tileWeight 0 (expandDiag tile.words (2 ^ b.f 16 14) (b.f 13 8 + j)) ch o *
                frameAt f 0 ch (pos * (b.f 21 20 + 1) + j * (b.f 19 17 + 1)))).sum)) (s.accAt c (b.trow + pos) o)) ∧
          (∀ r < 512, r ∉ m.rows → t.accRow c r = s.accRow c r) ∧ t.regs = s.regs ∧ t.mem = s.mem)) ∧
    (let m := winoPlan x b
     Starts { exec := true } s e b (taFields b && b.z 25 8 && decide (b.tq ≤ 4) && wtOf b != 0 && wtyOf b == 2) → Issues s c b m f p u →
      ∀ (l : List Tile) (W : Nat → List Word), Supplied s c b 2 l → l.length = 16 →
        (∀ j < 16, some (W j) = (l[j]?).map (fun t => t.words)) →
        Completes (.wino e b) s (fun t =>
          (∀ n < m.e / 2, ∀ i < 2, ∀ j < 2, ∀ o < 64, t.accAt c (b.trow + i * m.e + 2 * n + j) o =
            (List.range 16).foldl (fun a st =>
              let coef := winoA i (st / 4) * winoA j (st % 4)
              if coef = 0 then a
              else held32 (a + coef * ((List.range m.d.e2).map (fun ch => tileWeight 2 (W st) ch o *
                winoU f ch n (st / 4) (st % 4))).sum))
              (if b.tadd = true then s.accAt c (b.trow + i * m.e + 2 * n + j) o else 0)) ∧
          (∀ r < 512, r ∉ m.rows → t.accRow c r = s.accRow c r) ∧ t.regs = s.regs ∧ t.mem = s.mem)) ∧
    (let m := winoPlan x b
     ∀ (st : Nat) (l : List Tile) (W : Nat → List Word),
      Starts { exec := true } s e b (taFields b && b.z 25 8 && decide (b.tq ≤ 4) && wtOf b != 0 && wtyOf b == 2) →
      (s.core c).matRun = some ⟨f, p, st⟩ → 1 ≤ st → st < 16 → m.ok = true → Arrived s c b 2 l → l.length = 16 - st →
        (∀ j < 16 - st, some (W j) = (l[j]?).map (fun t => t.words)) →
        Completes (.wino e b) s (fun t =>
          (∀ n < m.e / 2, ∀ i < 2, ∀ j < 2, ∀ o < 64, t.accAt c (b.trow + i * m.e + 2 * n + j) o =
            (List.range (16 - st)).foldl (fun a q =>
              let coef := winoA i ((st + q) / 4) * winoA j ((st + q) % 4)
              if coef = 0 then a
              else held32 (a + coef * ((List.range m.d.e2).map (fun ch => tileWeight 2 (W q) ch o *
                winoU f ch n ((st + q) / 4) ((st + q) % 4))).sum)) (s.accAt c (b.trow + i * m.e + 2 * n + j) o)) ∧
          (∀ r < 512, r ∉ m.rows → t.accRow c r = s.accRow c r) ∧ (t.core c).matRun = none ∧ (t.eng e).pc = x.pc + 1 ∧
          t.regs = s.regs ∧ t.mem = s.mem))

/-- R173, R180 and R197: a tensor instruction waits for its frame, and a matrix instruction for its tiles; a descriptor of a type
that is no activation faults with DESC_INVALID, as does one whose frame does not fit the operand store or whose other checks fail; an
empty extent does nothing. -/
def Obligations.TensorWaits : Prop :=
  ∀ (c : Fin 32) (b : KBits) (s : State),
    let e := EngId.execute c
    let x := s.eng e
    let d := Desc.of (x.rdesc (b.f 46 42))
    (∀ v ∈ [(Instr.mma e b, (0x80 : BitVec 8), mmaPlan x b, taFields b && b.z 25 8),
        (Instr.conv e b, 0x81, convPlan x b, taFields b && b.z 16 8 && decide (b.f 25 22 ≤ 8) && !(wtOf b == 0 && b.f 25 22 != 0)),
        (Instr.wino e b, 0x82, winoPlan x b, taFields b && b.z 25 8 && decide (b.tq ≤ 4) && wtOf b != 0 && wtyOf b == 2),
        (Instr.dwconv e b, 0x83, dwPlan x b, taFields b && decide (b.f 25 22 ≤ 8 ∧ b.f 16 14 ≤ 5) && wtyOf b == 0)],
      let m := v.2.2.1
      Starts { exec := true } s e b v.2.2.2 → (s.core c).matRun = none →
      (d.inputOk = false → exec v.1 s = .next (descFault e s).flush) ∧
      (d.inputOk = true → d.over (s.core c).limits = false → (d.e0 = 0 ∨ d.e2 = 0) → exec v.1 s = .next (s.retire e).flush) ∧
      (d.inputOk = true → d.over (s.core c).limits = false → d.e0 ≠ 0 → d.e2 ≠ 0 →
        (d.frameOk = false ∨ 8192 < m.frameRows * d.e2 * entryWords d.ty d.win ∨ m.ok = false ∨ (m.wty = 1 ∧ b.trow % 2 = 1)) →
        exec v.1 s = .next (descFault e s).flush) ∧
      (MayIssue s c b m → (s.core c).bank = [] → (∀ i < m.frameRows, (s.core c).inbound (b.tq + i) = []) →
        exec v.1 s = .next (s.block e v.2.1 b)) ∧
      (∀ f p u, Issues s c b m f p u → wtOf b ≠ 0 → (s.core c).tiles = [] →
        Completes v.1 s (fun t => (t.eng e).wait = .blocked v.2.1 b ∧ (t.core c).matRun =
          some ⟨f, p || (b.tadd && u.anyPoison c m.rows), 0⟩ ∧ t.mem = s.mem ∧ t.regs = s.regs))) ∧
    (∀ v ∈ [(Instr.pool e b, (0x88 : BitVec 8), decide (1 ≤ poolE d b),
          b.z 23 0 && decide (1 ≤ b.tq ∧ b.f 32 31 ≤ 1 ∧ b.f 29 26 ≤ 8)),
        (Instr.ups e b, 0x89, decide (upsF b * d.e0 ≤ 512 ∧ (b.f 30 30 = 0 ∨ (1 ≤ d.pl ∧ 1 ≤ d.pr))),
          b.z 23 0 && b.z 25 25 && decide (1 ≤ b.tq ∧ b.f 32 31 ≤ 1 ∧ b.f 29 26 ≤ 8))],
      Starts { exec := true } s e b v.2.2.2 →
      (d.inputOk = false → exec v.1 s = .next (descFault e s).flush) ∧
      (d.inputOk = true → d.over (s.core c).limits = false →
        ((d.e0 = 0 ∨ d.e2 = 0) → exec v.1 s = .next (s.retire e).flush) ∧
        (d.e0 ≠ 0 → d.e2 ≠ 0 → (d.frameOk = false ∨ v.2.2.1 = false) → exec v.1 s = .next (descFault e s).flush) ∧
        (d.e0 ≠ 0 → d.e2 ≠ 0 → d.frameOk = true → v.2.2.1 = true → (s.core c).bank = [] → (s.core c).inbound b.tq = [] →
          exec v.1 s = .next (s.block e v.2.1 b))))

/-- R185, R186 and R252: POOL takes the largest, or the sum, of a window of taps, and UPS repeats or blends its columns, scaled; with
acc = 1 the result is combined with the row, and otherwise the columns above K become zero.  Other rows, memory and registers are as
before. -/
def Obligations.PoolAndUpsample : Prop :=
  ∀ (c : Fin 32) (b : KBits) (s u : State) (f : List (List (List Int))) (p : Bool),
    let e := EngId.execute c
    let d := Desc.of ((s.eng e).rdesc (b.f 46 42))
    let taps (i ch : Nat) := (List.range (b.f 29 26 + 1)).map (fun t => frameAt f 0 ch (i * (b.f 25 24 + 1) + t))
    let factor := if b.f 24 24 = 0 then 2 else 4
    let blend (i ch : Nat) : Int :=
      let x := d.pl + i / factor
      let w := upsWeights factor (i % factor)
      w.1 * frameAt f 0 ch (x - 1) + w.2.1 * frameAt f 0 ch x + w.2.2 * frameAt f 0 ch (x + 1)
    let scaled (i ch : Nat) : Int := (b.f 29 26 : Int) * (if b.f 30 30 = 0 then frameAt f 0 ch (d.pl + i / factor) else blend i ch)
    Straight s e → d.inputOk = true → d.over (s.core c).limits = false → d.e0 ≠ 0 → d.e2 ≠ 0 → d.frameOk = true →
    s.takeFrame c b.tq 1 d = (.frame f p, u) →
      (Starts { exec := true } s e b (b.z 23 0 && decide (1 ≤ b.tq ∧ b.f 32 31 ≤ 1 ∧ b.f 29 26 ≤ 8)) → 1 ≤ poolE d b → poolE d b ≤ 512 →
        Completes (.pool e b) s (fun t =>
          (∀ i < poolE d b, ∀ ch < 64, t.accAt c (b.trow + i) ch =
            if ch < d.e2 then
              held32 (if b.f 30 30 = 0 then
                (if b.tadd = true then max (s.accAt c (b.trow + i) ch) (maxOf (taps i ch)) else maxOf (taps i ch))
              else ((if b.tadd = true then s.accAt c (b.trow + i) ch else 0) + (taps i ch).sum))
            else if b.tadd = true then s.accAt c (b.trow + i) ch else 0) ∧
          (∀ r < 512, (∀ i < poolE d b, r ≠ (b.trow + i) % 512) → t.accRow c r = s.accRow c r) ∧
          (t.eng e).pc = (s.eng e).pc + 1 ∧ t.regs = s.regs ∧ t.mem = s.mem)) ∧
      (Starts { exec := true } s e b (b.z 23 0 && b.z 25 25 && decide (1 ≤ b.tq ∧ b.f 32 31 ≤ 1 ∧ b.f 29 26 ≤ 8)) →
        factor * d.e0 ≤ 512 → (b.f 30 30 = 0 ∨ (1 ≤ d.pl ∧ 1 ≤ d.pr)) →
        Completes (.ups e b) s (fun t =>
          (∀ i < factor * d.e0, ∀ ch < 64, t.accAt c (b.trow + i) ch =
            if ch < d.e2 then held32 ((if b.tadd = true then s.accAt c (b.trow + i) ch else 0) + scaled i ch)
            else if b.tadd = true then s.accAt c (b.trow + i) ch else 0) ∧
          (∀ r < 512, (∀ i < factor * d.e0, r ≠ (b.trow + i) % 512) → t.accRow c r = s.accRow c r) ∧
          (t.eng e).pc = (s.eng e).pc + 1 ∧ t.regs = s.regs ∧ t.mem = s.mem))

/-- No row is written before it is read as a source: rows rd + i and ra + j, modulo 512, i before j. -/
def Sys2Proof.Machine.Apart (rd ra n : Nat) : Prop := ∀ j < n, ∀ i < j, (rd + i) % 512 ≠ (ra + j) % 512

/-- R187 and R188: ELEM, column by column: in I32 exact and then saturated, in FP32 with one rounding, in BF16 widened and the
result rounded; and its folds across the columns, whose sum in BF16 is the tree of binary32 sums, rounded once.  Other rows, memory and registers are as before. -/
def Obligations.ElementResults : Prop :=
  ∀ (c : Fin 32) (b : KBits) (s : State),
    let e := EngId.execute c
    let x := s.eng e
    let ty := b.f 44 43
    let n := min (x.rs (b.f 14 10)).toNat 512
    let scalar : Word := if ty = 2 then x.rs (b.f 20 16) &&& 0xFFFF else x.rs (b.f 20 16)
    let num (g : Int → Int → Int) (h : Word → Word → Word) (a v : Word) : Word :=
      if ty = 0 then BitVec.ofInt 32 (held32 (g a.toInt v.toInt)) else if ty = 2 then fToBf (h (bfToF a) (bfToF v)) else h a v
    let fields (types : List Nat) (rbZero : Bool) : Bool :=
      b.z 9 0 && types.contains ty && (!rbZero || b.z 24 16) && !(b.f 15 15 == 1 && !b.z 24 21)
    let A (i col : Nat) : Word := (s.accRow c (b.f 33 25 + i)).getD col 0
    let B (i col : Nat) : Word := if b.f 15 15 = 1 then scalar else (s.accRow c (b.f 24 16 + i)).getD col 0
    let frame (t : State) : Prop := (∀ r < 512, (∀ i < n, r ≠ (b.f 42 34 + i) % 512) → t.accRow c r = s.accRow c r) ∧
      (t.eng e).pc = x.pc + 1 ∧ t.regs = s.regs ∧ t.mem = s.mem
    Straight s e → Apart (b.f 42 34) (b.f 33 25) n →
    (∀ v ∈ ([
        (.elemAdd e b, [0, 1, 2], num (fun a v => a + v) fAdd), (.elemSub e b, [0, 1, 2], num (fun a v => a - v) fSub),
        (.elemMul e b, [0, 1, 2], num (fun a v => a * v) fMul),
        (.elemMin e b, [0, 1, 2], num (fun a v => if v < a then v else a) (fPick false)),
        (.elemMax e b, [0, 1, 2], num (fun a v => if a < v then v else a) (fPick true)),
        (.elemSrar e b, [0], fun a v => BitVec.ofInt 32 (held32 (roundShift a.toInt (v.toNat % 64)))),
        (.elemShl e b, [0], fun a v => BitVec.ofInt 32 (held32 (a.toInt * 2 ^ (v.toNat % 64))))] : List (Instr × List Nat × (Word → Word → Word))),
      Starts { exec := true } s e b (fields v.2.1 false) → (b.f 15 15 = 1 ∨ Apart (b.f 42 34) (b.f 24 16) n) →
        Completes v.1 s (fun t => frame t ∧ ∀ i < n, ∀ col < 64, (t.accRow c (b.f 42 34 + i)).getD col 0 = v.2.2 (A i col) (B i col))) ∧
    (∀ v ∈ ([
        (.elemAbs e b, [0, 1, 2], true, fun a => num (fun a _ => if a < 0 then -a else a) (fun a _ => fAbs a) a a),
        (.elemNeg e b, [0, 1, 2], true, fun a => num (fun a _ => -a) (fun a _ => fNeg a) a a),
        (.elemMov e b, [0, 1, 2], true, fun a => num (fun a _ => a) (fun a _ => if fIsNaN a then fNaN else a) a a),
        (.elemCvtif e b, [0], true, fun a => fOfInt a.toInt), (.elemCvtfi e b, [1], true, fun a => BitVec.ofInt 32 (fToInt a)),
        (.elemCvtfb e b, [1], true, fToBf), (.elemCvtbf e b, [2], true, bfToF), (.elemExp2 e b, [1], false, fExp2),
        (.elemRcp e b, [1], false, fRcp), (.elemRsqrt e b, [1], false, fRsqrt)] : List (Instr × List Nat × Bool × (Word → Word))),
      Starts { exec := true } s e b (fields v.2.1 v.2.2.1) →
        Completes v.1 s (fun t => frame t ∧ ∀ i < n, ∀ col < 64, (t.accRow c (b.f 42 34 + i)).getD col 0 = v.2.2.2 (A i col))) ∧
    (Starts { exec := true } s e b (fields [0, 1, 2] true) → ty = 0 → (∀ i < n, (s.accRow c (b.f 33 25 + i)).length = 64) →
      Completes (.elemRsum e b) s (fun t => frame t ∧ ∀ i < n, ∀ col < 64, (t.accRow c (b.f 42 34 + i)).getD col 0 =
        BitVec.ofInt 32 (held32 ((List.range 64).map (fun j => (A i j).toInt)).sum)) ∧
      Completes (.elemRmax e b) s (fun t => frame t ∧ ∀ i < n, ∀ col < 64, ∃ j < 64,
        (t.accRow c (b.f 42 34 + i)).getD col 0 = A i j ∧ ∀ l < 64, (A i l).toInt ≤ (A i j).toInt)) ∧
    (Starts { exec := true } s e b (fields [0, 1, 2] true) → ty ≠ 0 → (∀ i < n, (s.accRow c (b.f 33 25 + i)).length = 64) →
      Completes (.elemRsum e b) s (fun t => frame t ∧ ∀ i < n, ∀ col < 64, (t.accRow c (b.f 42 34 + i)).getD col 0 =
        if ty = 2 then fToBf (treeSum fAdd ((s.accRow c (b.f 33 25 + i)).map bfToF))
        else treeSum fAdd (s.accRow c (b.f 33 25 + i))) ∧
      Completes (.elemRmax e b) s (fun t => frame t ∧ ∀ i < n, ∀ col < 64, (t.accRow c (b.f 42 34 + i)).getD col 0 =
        (List.range 63).foldl (fun m j => num (fun a _ => a) (fPick true) m (A i (j + 1))) (A i 0)))

/-- R189, R190, R255 and R258: what REQ computes, and that it leaves it in its output queues, plane-major or position-major, once there
is room; and the table that REQ of mode 3 loads. -/
def Obligations.RequantiserResults : Prop :=
  ∀ (c : Fin 32) (b : KBits) (s : State),
    let e := EngId.execute c
    let x := s.eng e
    let k := s.core c
    let d := Desc.of (x.rdesc (b.f 46 42))
    let o := reqOut c x b d s
    let rows := reqEntries b d o
    let lo : Int := if b.f 19 19 = 1 then d.zp else (outRange d.ty).1
    let acc (ch p : Nat) : Int := s.accAt c (if b.f 15 14 = 0 then b.trow + p else b.trow + 2 * p + (b.f 15 14 - 1)) ch
    let entry (ch : Nat) := k.entry ((if b.f 15 14 = 2 then 64 else 0) + ch)
    let free (q : Nat) (l : List QEntry) : Prop :=
      ((k.queueEmpty q = true ∧ k.armedIn q = false) ∨ (k.queueEmpty q = false ∧ (k.queue q).outbound = true)) ∧
      (k.queue q).size + (l.map (fun v => v.words.length)).sum ≤ 4096 ∧ (k.queue q).entries.length + l.length ≤ 64
    (b.f 32 31 = 0 → ∀ ch p, o.y ch p = clampInt lo (outRange d.ty).2
      (roundShift (acc ch p * (x.rs (b.f 30 26)).toInt) ((x.rs (b.f 25 21)).toNat % 64) + d.zp)) ∧
    (b.f 32 31 = 1 → ∀ ch p, o.y ch p = clampInt lo (outRange d.ty).2
      (roundShift ((acc ch p + (entry ch).b.toInt) * (entry ch).m.toInt) (entry ch).s + d.zp)) ∧
    (b.f 32 31 = 2 → ∀ p, ∃ ef < 128,
      let Q : Int := if d.ty = 1 then 127 else 7
      let most : Int := ((List.range d.e2).map (fun ch => ((acc ch p + (entry ch).b.toInt).natAbs : Int))).foldl (fun m v => if m < v then v else m) 0
      let M (f : Nat) : Int := [65536, 52429, 43691, 37449].getD f 0
      let fits (g : Nat) : Prop := roundShift (most * M (g % 4)) (16 + g / 4) ≤ Q
      (fits ef ∨ ef = 127) ∧ (∀ g < ef, ¬ fits g) ∧ o.scale p = ef / 4 + 32 * (ef % 4) ∧
      ∀ ch, let q := roundShift ((acc ch p + (entry ch).b.toInt) * M (ef % 4)) (16 + ef / 4)
        o.y ch p = if b.f 19 19 = 1 ∧ q < 0 then 0 else q) ∧
    (b.f 20 20 = 0 → rows = (List.range d.e2).map (fun ch =>
      { words := packWords d.ty ((List.range d.e0).map (fun p => elemRaw d.ty (o.y ch p)))
        poison := (List.range d.e0).any o.rowPoison || o.entryPoison ch })) ∧
    (b.f 20 20 = 1 → rows = (List.range ((d.e0 + 3) / 4)).map (fun g =>
      let ps := (List.range 4).filterMap (fun j => if 4 * g + j < d.e0 then some (4 * g + j) else none)
      { words := packWords d.ty (ps.flatMap (fun p => (List.range d.e2).map (fun ch => elemRaw d.ty (o.y ch p))))
        poison := ps.any o.rowPoison || (List.range d.e2).any o.entryPoison })) ∧
    (Straight s e → d.fieldsOk = true → (d.ty ≤ 2 ∨ d.ty = 4) → d.over k.limits = false → d.e0 ≠ 0 → d.e2 ≠ 0 → reqOk x b d = true →
      k.emitted = 0 → 1 ≤ b.tq →
      (∀ v ∈ [(Instr.reqScalar e b, 0), (Instr.reqTable e b, 1)], Starts { exec := true } s e b (trFields v.2 b) →
        k.queueEmpty b.tq = false → (k.queue b.tq).outbound = false →
        Completes v.1 s (fun t => (t.eng e).wait = .blocked 0x98 b ∧ (t.core c).queues = k.queues ∧ (t.core c).digest = k.digest ∧
          t.regs = s.regs ∧ t.mem = s.mem)) ∧
      (free b.tq rows → ∀ v ∈ [(Instr.reqScalar e b, 0), (Instr.reqTable e b, 1)], Starts { exec := true } s e b (trFields v.2 b) →
        Completes v.1 s (fun t => ((t.core c).queue b.tq).entries = (k.queue b.tq).entries ++ rows ∧
          ((t.core c).queue b.tq).outbound = (if rows = [] then (k.queue b.tq).outbound else true) ∧ (t.core c).emitted = 0 ∧
          (t.core c).acc = k.acc ∧ (t.core c).digest = (if b.f 13 13 = 1 then k.digest ^^^ reqDigest x b d o else k.digest) ∧
          (t.eng e).pc = x.pc + 1 ∧ t.regs = s.regs ∧ t.mem = s.mem)) ∧
      (Starts { exec := true } s e b (trFields 2 b) → d.ty ≤ 1 → d.zp = 0 → free b.tq rows → b.f 18 16 ≠ b.tq → free (b.f 18 16) [scaleEntry d o] →
        Completes (.reqDynamic e b) s (fun t => ((t.core c).queue b.tq).entries = (k.queue b.tq).entries ++ rows ∧
          ((t.core c).queue (b.f 18 16)).entries = (k.queue (b.f 18 16)).entries ++ [scaleEntry d o] ∧ (t.core c).acc = k.acc ∧
          (t.eng e).pc = x.pc + 1 ∧ t.regs = s.regs ∧ t.mem = s.mem))) ∧
    (Starts { exec := true } s e b (trFields 3 b) → Straight s e → d.fieldsOk = true → d.over k.limits = false → d.e2 ≤ 128 →
      k.loadBuf = [] → ∀ l r, (k.queue b.tq).outbound = false → (k.queue b.tq).entries = l ++ r → (∀ v ∈ l, v.words ≠ []) →
      let w := l.flatMap (fun v => v.words)
      w.length = 3 * d.e2 → (∀ i < d.e2, (w.getD (3 * i + 2) 0).toNat < 64) →
        Completes (.reqLoad e b) s (fun t => ((t.core c).queue b.tq).entries = r ∧
          (∀ i < d.e2, ((t.core c).entry i).b = w.getD (3 * i) 0 ∧ ((t.core c).entry i).m = w.getD (3 * i + 1) 0 ∧
            ((t.core c).entry i).s = (w.getD (3 * i + 2) 0).toNat) ∧
          (∀ i, d.e2 ≤ i → (t.core c).entry i = k.entry i) ∧ (t.eng e).pc = x.pc + 1 ∧ t.regs = s.regs ∧ t.mem = s.mem))

/-- R195 and R196: BOXD turns the columns of each anchor into its box and copies the others; NMS keeps candidates in descending score
order, up to its limit, drops those without a score and those that overlap a kept one of their class, and returns how many it kept; it
faults where its rows overlap.  Other rows, memory and registers are as before. -/
def Obligations.Detection : Prop :=
  ∀ (c : Fin 32) (b : KBits) (s : State),
    let e := EngId.execute c
    let x := s.eng e
    let n := (x.rs (b.f 26 22)).toNat
    let rd := b.f 44 36
    let ra := b.f 35 27
    let anchors := b.f 11 9 + 1
    let limit := (x.rs (b.f 21 17)).toNat
    let kept := nmsKept limit (x.rs (b.f 16 12)) ((List.range n).map (fun i => s.accRow c (ra + i)))
    Straight s e →
    (Starts { exec := true } s e b (b.z 5 0) → n ≤ 512 → Apart rd ra n →
      Completes (.boxd e b) s (fun t =>
        (∀ i < n, t.accRow c (rd + i) = (List.range anchors).flatMap (boxOf (x.rdesc (b.f 49 45)) (b.f 8 6)
          ((x.rs (b.f 16 12)).toNat + i) (x.rs (b.f 21 17)).toNat (s.accRow c (ra + i))) ++
            (s.accRow c (ra + i)).drop (4 * anchors)) ∧
        (∀ r < 512, (∀ i < n, r ≠ (rd + i) % 512) → t.accRow c r = s.accRow c r) ∧
        (t.eng e).pc = x.pc + 1 ∧ t.regs = s.regs ∧ t.mem = s.mem)) ∧
    (Starts { exec := true } s e b (b.z 11 0) →
      (∀ i < (if limit = 0 then n else min n limit), ∀ j < n, (rd + i) % 512 ≠ (ra + j) % 512) →
      Completes (.nms e b) s (fun t =>
        (∀ i < kept.length, t.accRow c (rd + i) = kept.getD i []) ∧ kept.length ≤ n ∧ (limit ≠ 0 → kept.length ≤ limit) ∧
        (∀ v ∈ kept, fIsNaN (v.getD 4 0) = false ∧ ∃ i < n, v = s.accRow c (ra + i)) ∧
        kept.Pairwise (fun u v => fLess (u.getD 4 0) (v.getD 4 0) = false ∧
          (u.getD 5 0 = v.getD 5 0 → boxKeep (x.rs (b.f 16 12)) u v = true)) ∧
        (limit = 0 → ∀ i < n, let v := s.accRow c (ra + i)
          fIsNaN (v.getD 4 0) = true ∨ v ∈ kept ∨ ∃ u ∈ kept, u.getD 5 0 = v.getD 5 0 ∧ boxKeep (x.rs (b.f 16 12)) u v = false) ∧
        (∀ r < 512, (∀ i < kept.length, r ≠ (rd + i) % 512) → t.accRow c r = s.accRow c r) ∧
        ((t.eng e).rs (b.f 49 45) = if b.f 49 45 = 0 then 0 else BitVec.ofNat 32 kept.length) ∧
        (t.eng e).pc = x.pc + 1 ∧ t.regs = s.regs ∧ t.mem = s.mem)) ∧
    (Starts { exec := true } s e b (b.z 11 0) → (∃ i < (if limit = 0 then n else min n limit), ∃ j < n, (rd + i) % 512 = (ra + j) % 512) →
      exec (.nms e b) s = .next (descFault e s).flush)

/-- R193 and R194: STAT writes the largest magnitude, or the rounded mean squared error, of clean rows; ROT multiplies blocks of 64
or 128 columns by the Hadamard matrix, saturated once.

R126, R191, R192 and R267: DIGEST CLEAR zeroes the accumulator; CHECK goes on where it is clean and equals the descriptor's first
eight bytes, and else logs DIGEST_MISMATCH; a read of DIGEST_LO answers the low half and captures the high half. -/
def Obligations.StatisticsRotationAndDigest : Prop :=
  (∀ (c : Fin 32) (b : KBits) (s : State),
    let e := EngId.execute c
    let x := s.eng e
    let n := (x.rs (b.f 24 20)).toNat
    let rd := b.f 42 34
    let ra := b.f 33 25
    let row (i : Nat) := s.accRow c (ra + i)
    let magnitude (i : Nat) : Nat := ((row i).map (fun w => w.toInt.natAbs)).foldl Nat.max 0
    let sign (i j : Nat) : Int := if popCount (i &&& j) 7 % 2 = 0 then 1 else -1
    let block (k i : Nat) : List Word := (List.range k).flatMap (fun h => row (k * i + h))
    Straight s e → (∀ i < n, s.accPoison c (ra + i) = false) →
    (Starts { exec := true } s e b (b.z 19 0) → 1 ≤ n → (∀ j < n, ∀ i < j, (rd + i / 64) % 512 ≠ (ra + j) % 512) → n ≤ 32768 →
      (∀ r, (s.accRow c r).length = 64) →
      Completes (.statMaxabs e b) s (fun t =>
        (∀ i < n, (t.accRow c (rd + i / 64)).getD (i % 64) 0 = BitVec.ofNat 32 (magnitude i)) ∧
        ((t.eng e).rs (b.f 47 43) = if b.f 47 43 = 0 then 0 else BitVec.ofNat 32 (((List.range n).map magnitude).foldl Nat.max 0)) ∧
        (t.eng e).pc = x.pc + 1 ∧ t.regs = s.regs ∧ t.mem = s.mem)) ∧
    (Starts { exec := true } s e b (b.z 12 0 && decide (b.f 14 13 ≤ 2)) → 1 ≤ n →
      Completes (.statMse e b) s (fun t =>
        ((t.eng e).rs (b.f 47 43) = if b.f 47 43 = 0 then 0 else BitVec.ofNat 32 (min (roundNat
          (((List.range n).map (fun i => ((row i).map (fun w =>
            let a := w.toInt
            let sh := (x.rs (b.f 19 15)).toNat % 64
            let q := clampInt (qtyRange (b.f 14 13)).1 (qtyRange (b.f 14 13)).2 (roundShift a sh)
            ((a - q * 2 ^ sh) * (a - q * 2 ^ sh)).toNat)).sum)).sum) (64 * n)) 0xFFFFFFFF)) ∧
        (∀ r, t.accRow c r = s.accRow c r) ∧ (t.eng e).pc = x.pc + 1 ∧ t.regs = s.regs ∧ t.mem = s.mem)) ∧
    (Starts { exec := true } s e b (b.z 19 0 && b.z 47 43 && decide (b.f 49 48 ≤ 1)) →
      let k := if b.f 49 48 = 0 then 1 else 2
      k * n ≤ 512 → Apart rd ra (k * n) → (∀ r, (s.accRow c r).length = 64) →
      Completes (.rot e b) s (fun t =>
        (∀ i < n, ∀ r < 64 * k, (t.accRow c (rd + k * i + r / 64)).getD (r % 64) 0 = BitVec.ofInt 32 (held32
          ((List.range (64 * k)).map (fun j => sign r j * ((block k i).getD j 0).toInt)).sum)) ∧
        (∀ r < 512, (∀ i < k * n, r ≠ (rd + i) % 512) → t.accRow c r = s.accRow c r) ∧
        (t.eng e).pc = x.pc + 1 ∧ t.regs = s.regs ∧ t.mem = s.mem))) ∧
  (∀ (c : Fin 32) (b : KBits) (s : State),
    let e := EngId.execute c
    let k := s.core c
    let want := ((s.eng e).rdesc (b.f 47 43)).extractLsb' 0 64
    (Starts { exec := true } s e b (b.z 49 0) →
      exec (.digestClear e b) s = .next ((s.setCore c { k with digest := 0, digestPoison := false }).retire e).flush) ∧
    (Starts { exec := true } s e b (b.f 49 48 == 1 && b.z 42 0) →
      (k.digestPoison = false → k.digest = want → exec (.digestCheck e b) s = .next (s.retire e).flush) ∧
      (k.digestPoison = true ∨ k.digest ≠ want → Straight s e → s.log.length < 64 →
        Completes (.digestCheck e b) s (fun t => t.log = s.log ++
          [⟨{ code := 0x0A, cls := 0, unit := c, d0 := BitVec.ofNat 32 (s.eng e).pc }, s.logSeq, s.nt⟩] ∧ (t.core c).digest = k.digest ∧
          (t.eng e).pc = (s.eng e).pc + 1 ∧ t.mem = s.mem))) ∧
    (Quiet s → Completes (.digestLoRead c) s (fun t => t.readData = k.digest.extractLsb' 0 32 ∧
      t.rd .DIGEST_HI c = k.digest.extractLsb' 32 32 ∧ t.cores = s.cores ∧ t.mem = s.mem)))

/-! ### Cores, pockets and waiting engines -/

/-- Every register reads as before but those that `l` lists. -/
def Sys2Proof.Machine.RegsBut (s t : State) (l : List (RegId × Nat × Nat)) : Prop :=
  ∀ r i j, i < 256 → j < 32 → (r, i, j) ∉ l → t.rd r i j = s.rd r i j

/-- R105 to R109, R111, R128 and R484: what START, HALT, STOP, WITHDRAW and RESTORE do in each state of a core that is not under audit,
and that they do nothing in the others; a HALT waits for the withdrawal of a parked watch; a START under audit is rejected. -/
def Obligations.CoreRequests : Prop :=
  ∀ (c : Fin 32) (s : State), Quiet s →
    let k := s.core c
    let others (t : State) : Prop := t.mem = s.mem ∧ t.keepers = s.keepers ∧ ∀ d, d ≠ c.val → t.core d = s.core d
    (s.underAudit c = true → Completes (.coreStart c) s (fun t => t.bit F.CORE_EVT_CFG_REJECT c = true ∧ t.cores = s.cores ∧ t.mem = s.mem)) ∧
    (s.underAudit c = false →
      (k.state = 1 → Completes (.coreStart c) s (fun t => (t.core c).state = 2 ∧ (t.core c).fetch = {} ∧ (t.core c).exec = {} ∧
        (t.core c).table = [] ∧ (t.core c).taintIn = 0 ∧ (t.core c).taintOut = 0 ∧ (t.core c).pocket = k.pocket ∧
        t.regs = s.regs ∧ others t)) ∧
      (k.state = 3 → Completes (.coreStart c) s (fun t => (t.core c).state = 2 ∧ (t.core c).fetch = { k.fetch with stopped := false, atHalt := false } ∧
        (t.core c).exec = { k.exec with stopped := false, atHalt := false } ∧ (t.core c).queues = k.queues ∧ t.regs = s.regs ∧ others t)) ∧
      (k.state ≠ 1 → k.state ≠ 3 → exec (.coreStart c) s = .next s) ∧
      (k.state = 2 → k.fetch.wait = .none → k.exec.wait = .none →
        Completes (.coreHalt c) s (fun t => (t.core c).state = 3 ∧ (t.core c).cause = (if k.fetch.atHalt || k.exec.atHalt then 1 else 2) ∧
          (t.core c).fetch.pc = k.fetch.pc ∧ (t.core c).exec.pc = k.exec.pc ∧ (t.core c).streams = k.streams ∧
          (t.core c).queues = k.queues ∧ t.bit F.CORE_EVT_HALTED c = true ∧ RegsBut s t [(.CORE_EVT, c, 0)] ∧ others t)) ∧
      (k.state = 2 → (∀ op b, k.fetch.wait ≠ .parked op b ∧ k.exec.wait ≠ .parked op b) →
        Completes (.coreHalt c) s (fun t => (t.core c).state = 3 ∧ (t.core c).fetch.pc = k.fetch.pc ∧ (t.core c).exec.pc = k.exec.pc ∧
          (t.core c).fetch.wait = k.fetch.wait ∧ (t.core c).exec.wait = k.exec.wait ∧ (t.core c).streams = k.streams ∧
          t.bit F.CORE_EVT_HALTED c = true ∧ RegsBut s t [(.CORE_EVT, c, 0)] ∧ others t)) ∧
      (∀ op b, k.state = 2 → k.fetch.wait = .parked op b → k.fetch.stopped = false → k.fetch.got = none →
        Completes (.coreHalt c) s (fun t => (t.core c).state = 2 ∧ (t.core c).fetch = { k.fetch with withdraw := true } ∧
          (t.core c).haltReq = true ∧ (t.core c).streams = k.streams ∧ t.regs = s.regs ∧ others t)) ∧
      (k.state ≠ 2 → exec (.coreHalt c) s = .next s) ∧
      (k.state = 2 ∨ k.state = 3 →
        Completes (.coreStop c) s (fun t => (t.core c).state = 4 ∧ (t.core c).cause = 3 ∧ (t.core c).queues = [] ∧ (t.core c).tiles = [] ∧
          (t.core c).streams = [] ∧ (t.core c).plane = none ∧ (t.core c).pocket = k.pocket ∧ t.bit F.CORE_EVT_FAULT c = true ∧
          RegsBut s t [(.CORE_EVT, c, 0)] ∧ others t)) ∧
      (k.state ≠ 2 → k.state ≠ 3 → exec (.coreStop c) s = .next s) ∧
      (k.state ≠ 5 → Completes (.coreWithdraw c) s (fun t => (t.core c).state = 5 ∧ (t.fld F.CORE_EN_EN).testBit c = false ∧
        (t.core c).queues = [] ∧ (t.core c).streams = [] ∧ others t)) ∧
      (k.state = 5 → exec (.coreWithdraw c) s = .next s) ∧
      (k.state = 5 → Completes (.coreRestore c) s (fun t => (t.core c).state = 0 ∧ (t.fld F.CORE_EN_EN).testBit c = true ∧
        t.bit F.CORE_BIND_VALID c = false ∧ others t)) ∧
      (k.state ≠ 5 → exec (.coreRestore c) s = .next s))

/-- R106, R110, R126, R216 and R518: in IDLE, READY, HALTED and FAULTED a core takes its binding, its configuration and its ring
table, and a VALID binding unsets its shape limits; in other states, and a binding under audit, a write changes nothing but
CFG_REJECT. -/
def Obligations.CoreConfiguration : Prop :=
  ∀ (c : Fin 32) (v : Word) (s : State), Quiet s →
    let st := (s.core c).state
    let rejected : Host.Outcome State Fault Refusal := .next (s.setBit F.CORE_EVT_CFG_REJECT 0 c)
    (s.configurable c = true → s.underAudit c = false →
      (∀ i ∈ [Instr.coreBindSet c v, Instr.coreBindClear c v],
        (v.getLsbD 15 = true → v.toNat % 16384 ≤ 10239 →
          Completes i s (fun t => t.rd .CORE_BIND c = (s.rd .CORE_BIND c &&& 0xF0004000) ||| (v &&& 0x0FFFBFFF) ∧
            RegsBut s t [(.CORE_BIND, c, 0)] ∧ (t.core c).state = (if st = 0 then 1 else st) ∧ (t.core c).limits = none ∧
            t.mem = s.mem ∧ ∀ d, d ≠ c.val → t.core d = s.core d)) ∧
        (v.getLsbD 15 = false →
          Completes i s (fun t => t.bit F.CORE_BIND_VALID c = false ∧ RegsBut s t [(.CORE_BIND, c, 0)] ∧ (t.core c).state = 0 ∧
            t.mem = s.mem ∧ ∀ d, d ≠ c.val → t.core d = s.core d)) ∧
        (v.getLsbD 15 = true → 10239 < v.toNat % 16384 → exec i s = rejected))) ∧
    (s.underAudit c = true → ∀ i ∈ [Instr.coreBindSet c v, Instr.coreBindClear c v], exec i s = rejected) ∧
    (s.configurable c = true →
      exec (.coreConfigWrite c false v) s = .next (s.wr .QPRI ((s.rd .QPRI c &&& 0xFF000000) ||| (v &&& 0x00FFFFFF)) c) ∧
      Completes (.coreConfigWrite c true v) s (fun t => t.rd .CHAIN_CFG c = (s.rd .CHAIN_CFG c &&& 0xF0E0E0F0) ||| (v &&& 0x0F1F1F0F) ∧
        RegsBut s t [(.CHAIN_CFG, c, 0)] ∧ (∀ u ∈ (t.core c).tiles, u ∈ (s.core c).tiles) ∧ t.mem = s.mem) ∧
      (∀ r : Fin 16,
        exec (.ringTableWrite c r 0 v) s = .next (s.wr .RING_LO ((s.rd .RING_LO c r &&& 3) ||| (v &&& 0xFFFFFFFC)) c r) ∧
        exec (.ringTableWrite c r 1 v) s = .next (s.wr .RING_HI ((s.rd .RING_HI c r &&& 0x7FFFC000) ||| (v &&& 0x80003FFF)) c r) ∧
        exec (.ringTableWrite c r 2 v) s = .next (s.wr .RING_STRIDE ((s.rd .RING_STRIDE c r &&& 0xFFFF0000) ||| (v &&& 0xFFFF)) c r))) ∧
    (s.configurable c = false →
      (∀ i ∈ [Instr.coreBindSet c v, .coreBindClear c v, .coreConfigWrite c false v, .coreConfigWrite c true v], exec i s = rejected) ∧
      ∀ (r : Fin 16) (w : Fin 3), exec (.ringTableWrite c r w v) s = rejected)

/-- R223: GO of RING_CUT captures the fill and drain words of the slot, or of every slot, of a valid ring; the cut poisons those
words, leaves every byte of data as it was, and reports CUT_DONE.

R160 to R162: the pocket load port takes an index, instructions one by one with their check value, and runs its loader from the
weight or activation store; a write it does not take is only reported. -/
def Obligations.SlotCutsAndPocketPort : Prop :=
  (∀ (c : Fin 32) (v : Word) (s : State), Quiet s →
    let u := s.plainWrite .RING_CUT (v &&& 0x7FF) c
    let g := s.ring c (u.fld F.RING_CUT_RING c)
    let slots := if u.bit F.RING_CUT_ALL c then List.range g.slots else [u.fld F.RING_CUT_SLOT c]
    (v.getLsbD 31 = true → s.bit F.RING_CUT_BUSY c = false → g.valid = true → (∀ i ∈ slots, i < g.slots) →
      Completes (.ringCut c v) s (fun t => t.bit F.RING_CUT_BUSY c = true ∧
        (t.core c).cut = some (slots.flatMap (fun i => [g.fill i, g.fill i + 4])) ∧ RegsBut s t [(.RING_CUT, c, 0)] ∧ t.mem = s.mem)) ∧
    (∀ l, (s.core c).cut = some l →
      (∀ a ∈ l, countStore a = true ∧ s.storeOk a 1 = true ∧ s.opens a = true ∧ s.portFree a = true) →
      Completes (.ringCutDone c) s (fun t => (∀ a ∈ l, t.poison.look a false = true) ∧
        (s.stores.late = [] → s.tst.injection = none → (∀ a ∈ l, s.flips.look a 0 = 0) → SameMemory s t) ∧
        t.bit F.RING_CUT_BUSY c = false ∧ t.bit F.SLOT_EVT_CUT_DONE c = true ∧ (t.core c).cut = none ∧ (t.core c).slotCut = true))) ∧
  (∀ (c : Fin 32) (v : Word) (s : State), Quiet s →
    let k := s.core c
    let at_ := s.fld F.PKT_INDEX_INDEX c
    (s.pktOpen c = true →
      Completes (.pocketIndexWrite c v) s (fun t => t.fld F.PKT_INDEX_INDEX c = v.toNat % 8192 ∧ t.rd .PKT_CRC c = 0xFFFFFFFF ∧
        t.cores = s.cores ∧ t.mem = s.mem) ∧
      Completes (.pocketWrite c v) s (fun t => (t.core c).pocketAt at_ = v ++ k.pktLow ∧ (∀ i, i ≠ at_ → (t.core c).pocketAt i = k.pocketAt i) ∧
        t.fld F.PKT_INDEX_INDEX c = (at_ + 1) % 8192 ∧
        t.rd .PKT_CRC c = crc32cRun (s.rd .PKT_CRC c) [byteOf k.pktLow 0, byteOf k.pktLow 1, byteOf k.pktLow 2, byteOf k.pktLow 3,
          byteOf v 0, byteOf v 1, byteOf v 2, byteOf v 3] ∧ t.mem = s.mem)) ∧
    (s.pktOpen c = false → ∀ i ∈ [Instr.pocketIndexWrite c v, .pocketWrite c v],
      Completes i s (fun t => t.bit F.PKT_STATUS_REJECT c = true ∧ t.bit F.CORE_EVT_CFG_REJECT c = true ∧ t.cores = s.cores ∧
        RegsBut s t [(.PKT_STATUS, c, 0), (.CORE_EVT, c, 0)])) ∧
    (s.pktOpen c = true → s.underAudit c = false → v.getLsbD 31 = true →
      let n := v.toNat % 16384
      let a := s.fld F.PKT_SRC_LO_ADDR c * 4 + s.fld F.PKT_SRC_HI_ADDR c * 2 ^ 32
      (1 ≤ n → n ≤ 8192 → pktSourceOk a n = true → Completes (.pocketLoad c v) s (fun t => t.bit F.PKT_STATUS_BUSY c = true ∧
        (t.core c).load = some (a, n) ∧ (t.core c).pocket = k.pocket ∧ t.mem = s.mem)) ∧
      (n = 0 ∨ 8192 < n ∨ pktSourceOk a n = false → Completes (.pocketLoad c v) s (fun t => t.bit F.PKT_STATUS_BUSY c = false ∧
        t.bit F.PKT_STATUS_DONE c = true ∧ t.bit F.PKT_STATUS_ERR c = true ∧ (t.core c).pocket = k.pocket))) ∧
    (∀ a n, k.load = some (a, n) → n ≤ 8192 → pktSourceOk a n = true → s.opens a = true → (∀ i < n, s.storeOk (a + 8 * i) 2 = true) → s.clean a (2 * n) →
      let w (i : Nat) : BitVec 64 := s.rawWord (a + 8 * i + 4) ++ s.rawWord (a + 8 * i)
      Completes (.pocketLoadDone c) s (fun t => (∀ i < n, (t.core c).pocketAt ((at_ + i) % 8192) = w i) ∧
        t.fld F.PKT_INDEX_INDEX c = (at_ + n) % 8192 ∧ t.rd .PKT_CRC c = crc32cRun (s.rd .PKT_CRC c) ((List.range n).flatMap (fun i => bytes64 (w i))) ∧
        t.bit F.PKT_STATUS_BUSY c = false ∧ t.bit F.PKT_STATUS_DONE c = true ∧ (t.core c).load = none ∧ t.mem = s.mem)))

/-- R79, R82, R103, R107, R218 and R219: an engine that waits starts its instruction again; a WAITF or WAITD whose watch list was full is tried again (R78); the result of a watch completes CMPCNT; a
withdrawal leaves the engine stopped before its instruction, with no watch; a slot watchdog that has run out marks the watch to be
withdrawn, or ends a retry, and a withdrawal after it completes the instruction with the time-out reported; one that has not does
nothing. -/
def Obligations.WaitingEngines : Prop :=
  ∀ (e : EngId) (c : Fin 32) (op : BitVec 8) (b : KBits) (s : State), Quiet s →
    let x := s.eng e
    let awake := s.updEng e (fun y => { y with wait := .none })
    (x.wait = .blocked op b → s.mayResume e = true →
      (∀ v ∈ ([(0x28, .ld e b), (0x29, .st e b), (0x2A, .dld e b), (0x2B, .dst e b), (0x51, .fadd e b), (0x52, .cas e b), (0x40, .arm e b), (0x42, .swait e b), (0x48, .fill e b), (0x49, .drain e b),
          (0x4A, .waitf e b), (0x4B, .waitd e b), (0x50, .cmpcnt e b), (0x58, .hsend e b), (0x59, .hrecv e b), (0x5A, .qrel e b),
          (0x80, .mma e b), (0x81, .conv e b), (0x82, .wino e b), (0x83, .dwconv e b), (0x88, .pool e b), (0x89, .ups e b)] :
          List (BitVec 8 × Instr)), op = v.1 → exec (.engineResume e) s = exec v.2 awake) ∧
      (op = 0x98 → ∀ v ∈ [(0, Instr.reqScalar e b), (1, .reqTable e b), (2, .reqDynamic e b), (3, .reqLoad e b)],
        b.f 32 31 = v.1 → exec (.engineResume e) s = exec v.2 awake) ∧
      (op = 0x42 → e = .fetch c → ((s.core c).stream (b.f 49 46)).cur = none → ((s.core c).stream (b.f 49 46)).shadow = none →
        Starts { fetch := true } awake e b (b.z 45 0) → exec (.engineResume e) s = .next (awake.retire e).flush)) ∧
    (∀ r, x.wait = .parked 0x50 b → x.withdraw = false → s.portFree (s.watchAddr e 0x50 b) = true → s.stores.results.find? (fun v => v.1 == e) = some (e, r) → r.poison = false →
      exec (.watchResult e) s =
        goesOn { s.watchTurn e with stores := { (s.watchTurn e).stores with results := (s.watchTurn e).stores.results.filter (fun v => v.1 != e) } }
          e ((x.ws (b.f 49 45) r.old).wp (b.f 44 42) r.flag)) ∧
    (x.wait = .parked op b → (∀ r ∈ s.stores.results, r.1 ≠ e) → s.portFree (s.watchAddr e op b) = true →
      (x.withdraw = true → x.expired = false → Completes (.watchWithdraw e) s (fun t => (t.eng e).wait = .blocked op b ∧
        (t.eng e).stopped = true ∧ (∀ key, ∀ w ∈ t.stores.watches.look key [], w.e ≠ e) ∧ t.mem = s.mem)) ∧
      (x.withdraw = false → x.expired = true → e = .fetch c → Straight s e → Completes (.watchWithdraw e) s (fun t =>
        (t.eng e).wait = .none ∧ (t.eng e).pc = x.pc + 1 ∧ (∀ key, ∀ w ∈ t.stores.watches.look key [], w.e ≠ e) ∧
        t.bit F.SLOT_EVT_TIMEOUT c = true ∧ Counted F.SLOT_TIMEOUT_CNT_COUNT c s t ∧ t.mem = s.mem))) ∧
    (let g := s.ring c (slotOf x b).1
     ∀ v ∈ [((0x4A : BitVec 8), g.fill (slotOf x b).2, false), (0x4B, g.fill (slotOf x b).2 + 4, true)],
      e = .fetch c → x.wait = .listFull v.1 b → x.stopped = false → s.slotOk g (slotOf x b).2 v.2.1 = true → s.opens v.2.1 = true →
      s.portFree v.2.1 = true → s.clean v.2.1 1 →
      (s.rawWord v.2.1 - (x.rs (b.f 40 36) + BitVec.ofNat 32 (b.f 15 0))).toNat < 2 ^ 31 →
        exec (.storeAccess (.retry e)) s = .next (((s.turnFor (.core c) v.2.1).taint c v.2.2 (slotOf x b).1 false).retire e).flush) ∧
    (e = .fetch c → s.slotExpired c = true → (op = 0x4A ∨ op = 0x4B) →
      (x.wait = .parked op b → x.got = none →
        exec (.slotWatchdogExpiry c) s = .next (s.updEng e (fun y => { y with expired := true }))) ∧
      (x.wait = .listFull op b → x.stopped = false → Straight s e → Completes (.slotWatchdogExpiry c) s (fun t =>
        (t.eng e).wait = .none ∧ (t.eng e).pc = x.pc + 1 ∧ t.bit F.SLOT_EVT_TIMEOUT c = true ∧
        Counted F.SLOT_TIMEOUT_CNT_COUNT c s t ∧ t.mem = s.mem))) ∧
    (s.slotExpired c = false → exec (.slotWatchdogExpiry c) s = .next s)

/-! ### Stores, the rail and calibration -/

/-- R66, R68, R69, R77 and R88: an access at a store port that is legal is performed and answered, each word of a write with its own
byte enables; one that is not, or that comes before it can be performed, performs nothing.

R74: a requester of a system port presents its access in its class's place, or waits for it where another member has that; the
port serves the classes in turn, those that have no access there passed over.  R75: the display store's accesses enter the
fabric bridge, which holds 64 and performs them in arrival order. -/
def Obligations.PortAccesses : Prop :=
  ∀ (store : Fin 5) (port : Fin 35) (addr : Addr) (op : PortOp) (s : State), Quiet s →
    let a := addr.toNat
    let w := s.rawWord a
    let run := Instr.storeAccess (.port store port addr op)
    let served (n : Nat) : Prop := storeOf a = some store.val ∧ s.storeOk a n = true ∧ s.opens a = true ∧ s.portFree a = true
    let answered (t : State) (flag : Bool) : Prop := t.portWords = [w] ∧ t.portFlag = flag ∧ t.portPoison = false ∧ t.regs = s.regs ∧ t.cores = s.cores
    let wrote (t : State) (v : Word) : Prop := (∀ j < 4, t.byteAt (a + j) = byteOf v j) ∧ ∀ y, y < a ∨ a + 4 ≤ y → t.byteAt y = s.byteAt y
    (∀ n, op = .read n → served n → s.clean a n → Completes run s (fun t =>
      t.portWords = (List.range n).map (fun i => s.rawWord (a + 4 * i)) ∧ t.portFlag = false ∧ t.portPoison = false ∧
      t.mem = s.mem ∧ t.regs = s.regs ∧ t.cores = s.cores)) ∧
    (∀ (d : List (Word × BitVec 4)) (p : Bool), op = .write d p → (∀ x ∈ d, x.2 = 15) → served d.length → s.unwatched a d.length →
      Completes run s (fun t =>
        (∀ i < d.length, ∀ j < 4, t.byteAt (a + 4 * i + j) = byteOf (d.getD i (0, 0)).1 j) ∧
        (∀ i < d.length, t.poison.look (a + 4 * i) false = p) ∧
        (∀ y, y < a ∨ a + 4 * d.length ≤ y → t.byteAt y = s.byteAt y) ∧ t.regs = s.regs ∧ t.cores = s.cores)) ∧
    (∀ (d : List (Word × BitVec 4)) (p : Bool), op = .write d p → served d.length → s.unwatched a d.length → s.clean a d.length →
      Completes run s (fun t =>
        (∀ i < d.length, ∀ j < 4, t.byteAt (a + 4 * i + j) =
          if (d.getD i (0, 0)).2.getLsbD j then byteOf (d.getD i (0, 0)).1 j else s.byteAt (a + 4 * i + j)) ∧
        (∀ i < d.length, t.poison.look (a + 4 * i) false = if (d.getD i (0, 0)).2 = 0 then false else p) ∧
        (∀ y, y < a ∨ a + 4 * d.length ≤ y → t.byteAt y = s.byteAt y) ∧ t.regs = s.regs ∧ t.cores = s.cores)) ∧
    (store.val ≠ 3 → served 1 → s.clean a 1 → s.unwatched a 1 →
      (∀ cond v delta, op = .compareCount cond v delta → Completes run s (fun t => answered t (condHolds cond w v) ∧
        (condHolds cond w v = true → wrote t (w + delta.signExtend 32)) ∧ (condHolds cond w v = false → t.mem = s.mem))) ∧
      (∀ v, op = .add v → Completes run s (fun t => answered t true ∧ wrote t (w + v))) ∧
      (∀ old new, op = .compareSwap old new → Completes run s (fun t => answered t (w == old) ∧ wrote t (if w = old then new else w)))) ∧
    ((¬ (storeOf a = some store.val ∧ s.storeOk a (portLen op) = true) ∨
        (store.val = 3 ∧ (∀ n, op ≠ .read n) ∧ ∀ d p, op ≠ .write d p) ∨ s.opens a = false) → exec run s = .next s) ∧
    (∀ (cls : Fin 5) (member : Fin 32), store.val = 4 →
      let r : SysAccess := { cls := cls, member := member, addr := a, op := some op }
      exec (.storeAccess (.request store cls member addr op)) s = .next { s with stores := { s.stores with
        bridge := if s.stores.bridge.length < 64 then s.stores.bridge ++ [r] else s.stores.bridge } }) ∧
    (store.val = 4 → s.opens (storeBase 4) = true → ∀ r l q, s.stores.bridge = r :: l → r.op = some q →
      exec (.storeAccess (.system store)) s = .next (({ s with stores := { s.stores with bridge := l } }).portAccess 4 6 r.addr q).flush) ∧
    (∀ (cls : Fin 5) (member : Fin 32), store.val ≠ 4 →
      let r : SysAccess := { cls := cls, member := member, addr := a, op := some op }
      let k := slotKey store cls
      Completes (.storeAccess (.request store cls member addr op)) s (fun t => t.mem = s.mem ∧ t.regs = s.regs ∧ t.cores = s.cores ∧
        (s.stores.slots.has k = false → t.stores.slots = s.stores.slots.put k r ∧ t.stores.waits = s.stores.waits) ∧
        (s.stores.slots.has k = true → t.stores.slots = s.stores.slots ∧ t.stores.waits = s.stores.waits ++ [(k, r)]))) ∧
    (∀ n < 5, store.val ≠ 4 → s.opens (storeBase store) = true → s.stores.waits = [] →
      let cls (i : Nat) : Nat := (s.stores.lastClass.look store 4 + 1 + i) % 5
      s.stores.slots.has (slotKey store (cls n)) = true → (∀ i < n, s.stores.slots.has (slotKey store (cls i)) = false) →
      (∀ c ∈ s.stores.slots, c.1 = slotKey store (cls n) → c.2.cls = cls n) →
      Completes (.storeAccess (.system store)) s (fun t => t.stores.lastClass.look store 4 = cls n ∧
        t.stores.slots.has (slotKey store (cls n)) = false ∧
        ∀ i < 5, i ≠ cls n → t.stores.slots.has (slotKey store i) = s.stores.slots.has (slotKey store i)))

/-- R83 to R85, R87, R88 and R96: zeroing leaves every word of the stores zero, clean and valid, and is done once; a scrub read of a row
leaves no error of one or two stored bits in its block, and poisons the words with two; it moves no watch; and the counters can be
cleared. -/
def Obligations.StoreUpkeep : Prop :=
  ∀ (st : Fin 5) (octet : Fin 96) (s : State), Quiet s →
    let at_ := s.scrubAt st octet
    let block (row i : Nat) : Nat := storeBase st + (row * octets st + octet) * 256 + 4 * i
    (s.bit F.STO_STATUS_INIT_DONE = false → Completes .storeInitDone s (fun t => t.bit F.STO_STATUS_INIT_DONE = true ∧
      (∀ a k, storeOf a = some k → t.byteAt a = 0 ∧ t.poison.look a false = false ∧ t.flips.look a 0 = 0) ∧
      (∀ a, storeOf a = none → t.byteAt a = s.byteAt a) ∧ RegsBut s t [(.STO_STATUS, 0, 0)])) ∧
    (s.bit F.STO_STATUS_INIT_DONE = true → exec .storeInitDone s = .next s) ∧
    (octet.val < octets st → (s.fld F.STO_CTRL_SCRUB_EN).testBit st = true → s.bit F.STO_STATUS_INIT_DONE = true →
      s.scrubDue st octet = true →
      s.tst.injection = none → ∀ row, s.scrubFrom st at_.2 = some row →
      Completes (.scrubRead st octet) s (fun t => t.scrubAt st octet = (at_.1, row + 1) ∧
        (∀ i < 64, popCount40 (s.flips.look (block row i) 0) ≤ 2 → t.flips.look (block row i) 0 = 0) ∧
        (∀ i < 64, popCount40 (s.flips.look (block row i) 0) = 2 → t.poison.look (block row i) false = true) ∧
        (∀ i < 64, popCount40 (s.flips.look (block row i) 0) ≤ 1 → t.poison.look (block row i) false = s.poison.look (block row i) false) ∧
        t.stores.watches = s.stores.watches ∧ t.stores.results = s.stores.results ∧
        ((∀ i < 64, s.flips.look (block row i) 0 = 0) → t.mem = s.mem))) ∧
    Completes .stoCounterClear s (fun t => (∀ i < 5, t.rd .STO_ECC_CORR i = 0 ∧ t.rd .STO_ECC_UNC i = 0 ∧ t.rd .STO_SCRUB_PASS i = 0 ∧
      t.rd .STO_WATCH i = 0) ∧ RegsBut s t ((List.range 5).flatMap (fun i => [(.STO_ECC_CORR, i, 0), (.STO_ECC_UNC, i, 0),
        (.STO_SCRUB_PASS, i, 0), (.STO_WATCH, i, 0)])) ∧ t.mem = s.mem)

/-- No access waits at a port of the stores: no stream presents one, no engine retries one, none is at a system port or in the fabric
bridge. -/
def Sys2Proof.Machine.State.noneWaits (s : State) : Prop :=
  (∀ c k, s.presented c k = none) ∧ s.retrying = [] ∧ s.stores.slots = [] ∧ s.stores.waits = [] ∧ s.stores.bridge = []

/-- R90 to R93: a request begins the transition of each band that is not in its target state; at its end the band is in that state,
its words zero where it leaves OFF, and BAND_DONE is latched. -/
def Obligations.RetentionBands : Prop :=
  ∀ (st : Fin 5) (band : Fin 8) (v : Word) (s : State), Quiet s →
    let key := st.val * 8 + band.val
    let lo := storeBase st + band * (storeSize st / 8)
    let goal := s.stores.bandMoves.look key 0
    Completes (.bandRequest st v) s (fun t => t.fld F.STO_BAND_REQ st = v.toNat % 65536 ∧ t.bandState st band = s.bandState st band ∧
      (t.stores.bandMoves.has key = true ↔ s.stores.bandMoves.has key = true ∨ s.bandState st band ≠ t.bandTarget st band) ∧ t.mem = s.mem) ∧
    (s.stores.bandMoves.has key = false → exec (.bandTransitionDone st band) s = .next s) ∧
    (s.stores.bandMoves.has key = true → goal < 3 → (s.bandState st band = 0 → goal ≠ 0 → s.noneWaits) → Completes (.bandTransitionDone st band) s (fun t => t.bandState st band = goal ∧
      t.bit F.STO_EVT_BAND_DONE = true ∧ (∀ b < 8, b ≠ band.val → t.bandState st b = s.bandState st b) ∧
      (s.bandState st band = 2 → goal ≠ 2 → ∀ a, t.byteAt a = if lo ≤ a ∧ a < lo + storeSize st / 8 then 0 else s.byteAt a) ∧
      (s.bandState st band ≠ 2 ∨ goal = 2 → t.mem = s.mem)))

/-- R41, R42, R45 to R48: a monitor window gives its core's estimate and measured rate; the belay lowers the rail by 5 mV where
every condition of R46 holds, and raises it by 5 mV, up to its limit, where it wants it higher; else neither command does
anything. -/
def Obligations.SpeedAndRail : Prop :=
  ∀ (c : Fin 32) (transits handshakes blocked : Nat) (s : State), Quiet s →
    (s.coreOn c = true → s.bit F.FAB_CTRL_MON_EN = true →
      let window := 1000 * max 10 (s.fld F.MON_CFG_WINDOW)
      Completes (.monitorWindowEnd c transits handshakes blocked) s (fun t =>
        t.fld F.CORE_SPEED_EST c = min 65535 (transits * (s.effGain c).toNat / 4096) ∧
        t.fld F.CORE_SPEED_MEAS c = (if 4 * (window - blocked) < window then 0 else min 65535 (handshakes * 1000 / (window - blocked))) ∧
        t.fld F.HS_EXEC_COUNT c = (s.fld F.HS_EXEC_COUNT c + handshakes) % 2 ^ 32 ∧
        t.fld F.BLOCK_TIME_NS c = (s.fld F.BLOCK_TIME_NS c + blocked) % 2 ^ 32 ∧ t.mem = s.mem ∧ t.cores = s.cores)) ∧
    (∀ mv, s.fab.rail = some mv → mv < 1024 →
      (s.belayCommands = true → s.avsFree = true →
        (s.fab.active = [] ∨ ∃ since, s.fab.goodSince = some since ∧ s.lowerHold ≤ s.elapsed since) → s.wantsRaise = false → s.bit F.FAB_STATUS_LOW_INHIBIT = false →
        s.passed s.fab.lastCmd s.lowerInt = true → s.passed s.fab.lastRaise s.lowerHold = true → s.railLimits.1 + 5 ≤ mv → 5 ≤ mv →
        Completes .belayLower s (fun t => t.fab.rail = some (mv - 5) ∧ t.fld F.BELAY_STATE_RAIL = mv - 5 ∧ Counted F.LOWER_COUNT_COUNT 0 s t ∧
          t.bit F.AVS_STATUS_BUSY = true ∧ t.fab.lastCmd = some s.time ∧ t.mem = s.mem ∧ t.cores = s.cores)) ∧
      (s.wantsRaise = true → exec .belayLower s = .next s) ∧
      (s.belayCommands = true → s.wantsRaise = true → s.avsFree = true → s.passed s.fab.lastCmd s.raiseInt = true →
        (mv : Int) < s.railLimits.2 →
        Completes .railBelowVlowRaise s (fun t => t.fab.rail = some (min ((mv : Int) + 5) s.railLimits.2).toNat ∧
          Counted F.RAISE_COUNT_COUNT 0 s t ∧ t.fab.lastRaise = some s.time ∧ t.bit F.AVS_STATUS_BUSY = true ∧ t.mem = s.mem)) ∧
      (s.wantsRaise = false → exec .railBelowVlowRaise s = .next s))

/-- R49, R51 and R64: a manual target commands the rail within 550 to 850 mV; an accepted command is the rail's; a failed attempt is
repeated and the fourth failure sets AVS_FAULT and takes the command back; a read-back answers its two values; writing ones
clears the belay's flags; and a PMBus transaction runs from START to DONE, a clean read leaving its bytes. -/
def Obligations.PowerBuses : Prop :=
  ∀ (v : Word) (st : BitVec 2) (vout iout : BitVec 16) (s : State), Quiet s →
    let idle := s.fab.deferred = none ∧ s.fab.readPend = false
    (s.bit F.AVS_CTRL_EN = true → s.bit F.AVS_CTRL_MODE = false → s.avsFree = true →
      Completes (.avsTargetWrite v) s (fun t => t.fab.rail = some (max 550 (min 850 (v.toNat % 1024))) ∧ t.bit F.AVS_STATUS_BUSY = true ∧
        t.fld F.BELAY_STATE_RAIL = max 550 (min 850 (v.toNat % 1024)) ∧ t.mem = s.mem)) ∧
    (∀ c, s.fab.cmd = some c → s.fab.readback = false → idle → c.mv < 1024 →
      Completes (.avsResponse (.ok st)) s (fun t => t.fab.cmd = none ∧ t.fab.accepted = some c.mv ∧ t.fld F.AVS_STATUS_CMD = c.mv ∧
        t.bit F.AVS_STATUS_BUSY = false ∧ t.fld F.AVS_STATUS_LAST_STAT = st.toNat ∧ t.mem = s.mem) ∧
      (c.attempts < 4 → Completes (.avsResponse (.failed none)) s (fun t => t.fab.cmd = some { c with attempts := c.attempts + 1, at_ := s.time } ∧
        Counted F.AVS_ERRCNT_RETRIES 0 s t ∧ t.bit F.BELAY_EVT_AVS_FAULT = s.bit F.BELAY_EVT_AVS_FAULT)) ∧
      (4 ≤ c.attempts → Completes (.avsResponse (.failed none)) s (fun t => t.fab.cmd = none ∧ t.bit F.BELAY_EVT_AVS_FAULT = true ∧
        t.fab.rail = s.fab.accepted ∧ Counted F.AVS_ERRCNT_FAILURES 0 s t ∧ t.bit F.AVS_STATUS_BUSY = false))) ∧
    (s.fab.cmd = none → s.fab.readback = true → idle →
      Completes (.avsResponse (.readback st vout iout)) s (fun t => t.fab.readback = false ∧ t.fld F.AVS_READ_VOUT = vout.toNat ∧
        t.fld F.AVS_READ_IOUT = iout.toNat ∧ t.mem = s.mem)) ∧
    (s.pollDue = false → exec .avsReadback s = .next s) ∧
    (s.pollDue = true → s.avsFree = true → s.fab.deferred = none →
      Completes .avsReadback s (fun t => t.fab.readback = true ∧ t.fab.readPend = false ∧ t.regs = s.regs ∧ t.mem = s.mem)) ∧
    exec (.avsFaultClear v) s = .next (s.wr .BELAY_EVT (s.rd .BELAY_EVT &&& ~~~(v &&& 0x3FF))) ∧
    (v.getLsbD 31 = true → s.bit F.PMB_STATUS_BUSY = false → s.bit F.PMB_CTRL_EN = true →
      Completes (.pmbusStart v) s (fun t => t.bit F.PMB_STATUS_BUSY = true ∧
        t.fab.pmb = some { addr := v.toNat % 128, cmd := v.toNat / 2 ^ 8 % 256, read := v.getLsbD 16, len := min 4 (v.toNat / 2 ^ 17 % 8)
                           data := s.rd .PMB_DATA, speed := s.pmbSpeed, pec := s.bit F.PMB_CTRL_PEC } ∧ t.mem = s.mem)) ∧
    (∀ p nack err lost, s.fab.pmb = some p → p.len ≤ 4 →
      let pec := p.read && p.pec && err
      Completes (.pmbusDone nack err lost v) s (fun t => t.fab.pmb = none ∧ t.bit F.PMB_STATUS_BUSY = false ∧ t.bit F.PMB_STATUS_DONE = true ∧
        (nack = true → t.bit F.PMB_STATUS_NACK = true) ∧
        t.bit F.PMB_STATUS_PEC_ERR = (s.bit F.PMB_STATUS_PEC_ERR || pec) ∧
        (lost = true → t.bit F.PMB_STATUS_ARB_LOST = true) ∧
        ((t.rd .PMB_DATA).toNat = if p.read && !(nack || pec || lost) then v.toNat % 2 ^ (8 * p.len) else (s.rd .PMB_DATA).toNat) ∧ t.mem = s.mem))

/-- R44, R55, R58, R60, R62, R63 and R514: a stripe shadow and a calibration register take what is written; the clears zero what they
clear; and a sensor's reading is its core's, 120 °C or more, corrected by the factory trim alone, driving THERMTRIP_N low. -/
def Obligations.CalibrationAndTemperature : Prop :=
  ∀ (c : Fin 32) (x : Fin 2) (k : Fin 32) (v : Word) (reading : Int) (s : State), Quiet s →
    Completes (.stripeShadowWrite x k v) s (fun t => t.rd .STRIPE_SHADOW x k = (s.rd .STRIPE_SHADOW x k &&& 0xFE00FE00) ||| (v &&& 0x01FF01FF) ∧
      RegsBut s t [(.STRIPE_SHADOW, x, k)] ∧ x.val ∈ t.fab.shadowNew ∧ t.mem = s.mem) ∧
    Completes (.calUserWrite c v) s (fun t => t.rd .CAL_USER c = (s.rd .CAL_USER c &&& 0xF0000000) ||| (v &&& 0x0FFFFFFF) ∧
      (t.clamped c = true → (t.fld F.CAL_CLAMP_CLAMP).testBit c = true) ∧ (∀ d < 32, d ≠ c.val → t.rd .CAL_USER d = s.rd .CAL_USER d) ∧ t.mem = s.mem) ∧
    (v.getLsbD 1 = true → Completes (.userClear v) s (fun t => (∀ d < 32, t.rd .CAL_USER d = 0) ∧ (∀ d < 32, t.rd .CAL_FV d = s.rd .CAL_FV d) ∧
      t.mem = s.mem)) ∧
    (v.getLsbD 0 = true → Completes (.cumClear x v) s (fun t => t.rd .CUM_FORCED x = 0 ∧ t.rd .CUM_POISONED x = 0 ∧ t.rd .CUM_LATE x = 0 ∧
      t.rd .CUM_POLICY x = 0 ∧ RegsBut s t [(.CUM_FORCED, x, 0), (.CUM_POISONED, x, 0), (.CUM_LATE, x, 0), (.CUM_POLICY, x, 0)] ∧
      t.mem = s.mem)) ∧
    (v.getLsbD 0 = false → exec (.cumClear x v) s = .next s) ∧
    (∀ i ∈ [Instr.junctionTemperatureChange c reading, .thermalTrip c reading], Completes i s (fun t =>
      (t.core c).tempReading = reading ∧ (t.thermTrip = true ↔ s.thermTrip = true ∨ 960 ≤ reading + s.sfld F.CAL_FGT_TTRIM c) ∧
      (∀ d, d ≠ c.val → t.core d = s.core d) ∧ t.mem = s.mem ∧ RegsBut s t [(.BELAY_EVT, 0, 0)]))

/-! ### Frames and lines -/

/-- No epoch, commit, shadow write, takeover, audit or announcement waits for a frame boundary. -/
def Sys2Proof.Machine.Calm (s : State) : Prop :=
  Quiet s ∧ s.epochState = 0 ∧ s.bit F.CMP_STATUS_PENDING = false ∧ s.boundaryShadow = [] ∧ s.tu.takeover = false ∧
  s.tst.audit = none ∧ s.tst.request = none ∧ s.bit F.TST_CTRL_AUTO_AUDIT = false ∧ s.bit F.ANN_CTRL_EN = false

/-- R28, R29 and R353: at a boundary of a raster that runs the items of the closing frame go to the snapshot bank under its sequence
number, the frame-report sources are raised, the items restart at zero, and the next frame has the next number; a raster with
EN clear stops there, and one that stands starts with EN and an APPLY, locked to network time not before its first instant (R411).
R521: at raster 0's boundaries a new reporting frame begins. -/
def Obligations.FrameBoundaries : Prop :=
  ∀ (r : Fin 2) (m : FrameMeasures) (s : State), Calm s →
    (s.running r = true → (s.raster r).pend = none → Completes (.frameBoundary r m) s (fun t =>
      (t.raster r).seq = (s.raster r).seq + 1 ∧ (t.raster r).boundaryAt = s.time ∧ t.bit F.TMG_EVT_FRAME r = true ∧
      t.running r = s.bit F.TMG_CTRL_EN r ∧ (r = 0 → t.frameRaised = []) ∧
      ∀ x < 2, s.pathRaster x = r.val →
        let p := s.pics.look x {}
        t.rd .RPT_SEQ x = (s.raster r).seq ∧ t.rd .RPT_FORCED x = BitVec.ofNat 32 p.forced ∧ t.rd .RPT_POISONED x = BitVec.ofNat 32 p.poisoned ∧
        t.rd .RPT_LATE x = BitVec.ofNat 32 p.late ∧ t.rd .RPT_POLICY x = BitVec.ofNat 32 p.policy ∧
        t.rd .RPT_MISSING x = BitVec.ofNat 32 p.missing ∧ t.irq.frameLatch.look x false = true ∧
        (t.pics.look x {}).forced = 0 ∧ (t.pics.look x {}).late = 0 ∧ (t.pics.look x {}).missing = 0 ∧ (t.pics.look x {}).minSlack = none)) ∧
    (s.running r = false → (s.raster r).pend.isSome = true → s.bit F.TMG_CTRL_EN r = true → (∀ f ∈ (s.raster r).startAt, f ≤ s.nt) →
      Completes (.frameBoundary r m) s (fun t => t.running r = true ∧ (t.raster r).seq = 1 ∧ (t.raster r).pend = none ∧
        (t.raster r).boundaryAt = s.time ∧ (r = 0 → t.frameRaised = []))) ∧
    (s.running r = false → ((s.raster r).pend.isSome = false ∨ s.bit F.TMG_CTRL_EN r = false ∨ ∃ f ∈ (s.raster r).startAt, s.nt < f) →
      exec (.frameBoundary r m) s = .next s)

/-- R15, R18, R324 and R337: the decision instant of a line leaves the layers of the line for its blend; a release instant releases
the rows that are due, in order, the first one of a frame after the frame has begun; the blend takes the line, and each enabled port that does not pair lines has it; an opaque
pixel replaces what lies below it, and a transparent one leaves it. -/
def Obligations.LineEvents : Prop :=
  ∀ (r x : Fin 2) (n : Nat) (lanes : BitVec 8) (s : State), Quiet s →
    let key := 8192 * r.val + n
    let p := s.path x
    (s.running r = true → n < s.frc F.TMG_V_VACT r → Completes (.decisionInstant r n) s (fun t => t.cmp.lines.has key = true ∧
      t.cmp.lines.look key [] = (if r = 0 then (s.decideLine n).1.1 else (s.decideSecond n).1))) ∧
    (s.running r = false ∨ s.frc F.TMG_V_VACT r ≤ n → exec (.decisionInstant r n) s = .next s) ∧
    (∀ left y width height, s.pathRect x = some (left, y, width, height) → s.running (s.pathRaster x) = true → s.bit F.INP_CTRL_EN x = true →
      y ≤ n → n < y + height → p.started = true → Completes (.releaseInstant x n) s (fun t =>
        let m := (t.path x).next
        p.next ≤ m ∧ (∀ j, p.next ≤ j → j < m → s.releaseLine x j ≤ n - y ∧ (t.path x).rows.has j = true) ∧
        (p.height ≤ m ∨ n - y < s.releaseLine x m) ∧ (t.path x).height = p.height ∧ t.cores = s.cores)) ∧
    (∀ left y width height, s.pathRect x = some (left, y, width, height) → s.running (s.pathRaster x) = true → s.bit F.INP_CTRL_EN x = true →
      n = y → 0 < height → p.started = false → Completes (.releaseInstant x n) s (fun t =>
        (t.path x).started = true ∧ (t.path x).j = p.j + (t.path x).height ∧ (t.path x).base = p.j ∧ t.cores = s.cores)) ∧
    (s.bit F.INP_CTRL_EN x = false → exec (.releaseInstant x n) s = .next s) ∧
    (s.running r = true → s.cmp.lines.has key = true → Completes (.lineBlend r n lanes) s (fun t =>
      t.cmp.lines.has key = false ∧ (∀ o ∈ s.portsOf r, s.frc F.SRC_FMT_ENC o < 3 → (t.portLine o).line = n) ∧
      (∀ l ∈ s.cmp.lines.look key [], ∀ v, l.stream = some v → s.hdcpBlocked r v = true → t.bit F.CMP_EVT_HDCP_BLOCK = true))) ∧
    (s.running r = false ∨ s.cmp.lines.has key = false → exec (.lineBlend r n lanes) s = .next s) ∧
    (∀ (pspace : Bool) (q below : Pixel), (q.alpha = 4096 → blendPixel false pspace 255 q below = q) ∧
      (q.alpha = 0 → blendPixel false pspace 255 q below = { below with alpha := 4096 }))

/-- R18 and R19: a stripe-line is shown enhanced exactly where its count has reached r + 1 in the order of R77, its count and its data are
clean, and its stripe is not FORCED; else the cause is the first of FORCED, POISONED and LATE that holds.

R331 and R335: a fetch of a source line of a packed surface in HyperRAM leaves its pixels, through the layer's matrix, in the layer's
ring, and changes nothing for a line already abandoned or one that the surface does not have. -/
def Obligations.StripeAndSurfaceLines : Prop :=
  (∀ (x st k : Nat) (s : State),
    let r := s.erSlot x st k
    let w := s.rawWord r.fill
    let look := (s.lookStripe x st k).1
    s.countOk r.fill = true → s.flips.look r.fill 0 = 0 →
    let bad := s.poison.look r.fill false
    (look.cause = none → s.stripeForced x st = false ∧ bad = false ∧ (w - r.need).toNat < 2 ^ 31) ∧
    (s.stripeForced x st = false → bad = false → (w - r.need).toNat < 2 ^ 31 →
      let data := ((s.turnFor (.unit 4) r.fill).readStripe x st r.slot).1
      look.cause = (if data.2 then some .poisoned else none) ∧ look.data = data.1) ∧
    (s.stripeForced x st = true → look.cause = some .forced) ∧
    (s.stripeForced x st = false → bad = true → look.cause = some .poisoned) ∧
    (s.stripeForced x st = false → bad = false → 2 ^ 31 ≤ (w - r.need).toNat → look.cause = some .late)) ∧
  (∀ (layer : Fin 8) (line : Nat) (s : State), Quiet s →
    let l := layer.val
    let w := s.frc F.LAY_SIZE_W l / s.layScale l
    let fmt := s.frc F.LAY_CTRL_FORMAT l
    let a := 256 * s.frc F.LAY_ADDR_ADDR l + line * s.frc F.LAY_STRIDE_BYTES l
    let size := if fmt = 0 then 2 else if fmt = 1 then 3 else 4
    (s.running 0 = true → s.isSurface l = true → line < s.frc F.LAY_SIZE_H l / s.layScale l → s.frc F.LAY_CTRL_UBSAL l = 0 → fmt < 4 →
      s.inHyper a (size * w) = true → (s.surfOf l).gone.contains line = false → Completes (.surfaceFetch layer line) s (fun t =>
        (t.surfOf l).rows.look line [] = (List.range w).map (fun u => s.surfMatrix l (packedPixel fmt
          (((List.range size).map (fun i => (s.byteAt (a + size * u + i)).toNat * 256 ^ i)).sum))) ∧
        (t.surfOf l).gone = (s.surfOf l).gone ∧ (s.tst.injection = none → t.regs = s.regs))) ∧
    (s.running 0 = true → s.isSurface l = true → s.frc F.LAY_CTRL_UBSAL l = 0 → fmt < 4 → s.inHyper a (size * w) = true →
      (s.surfOf l).gone.contains line = true → exec (.surfaceFetch layer line) s = .next s) ∧
    (s.running 0 = false ∨ s.isSurface l = false ∨ s.frc F.LAY_SIZE_H l / s.layScale l ≤ line →
      exec (.surfaceFetch layer line) s = .next s))

/-- R410, R412 and R413: at the flip edge of a NETWORK-locked raster FLIP_ERR takes the edge's distance from the nearest flip instant,
held to 32 bits, and raster 0's FLIP_INDEX the instant's number; no other raster has one.  R416 to R418: a delivered announcement
is recorded for its sender, the check after a flip instant counts the watched chips whose announcement did not come, and clears
the record; a chip with MISS_LIMIT misses is lost until its bit is cleared. -/
def Obligations.FlipsAndAnnouncements : Prop :=
  ∀ (r : Fin 2) (p : Fin 4) (v : Word) (s : State), Quiet s →
    let k := s.flipNearest r s.ntInt
    let err : Int := s.ntInt - ((s.flipBase r + k * s.frc F.FLIP_NUM_NS r / s.flipDen r : Nat) : Int)
    let misses (x : State) (j : Nat) : Nat := x.fld F.ANN_STAT_MISSES j
    let lost (x : State) (j : Nat) : Bool := (x.fld F.ANN_LOST_LOST).testBit j
    (s.running r = true → s.frc F.TMG_CTRL_LOCK r = 2 → Completes (.flipEdge r) s (fun t =>
      (t.rd .FLIP_ERR r).toInt = held32 err ∧
      (r = 0 → (t.rd .FLIP_INDEX_LO).toNat + 2 ^ 32 * (t.rd .FLIP_INDEX_HI).toNat = k % 2 ^ 64) ∧ t.mem = s.mem ∧ t.cores = s.cores)) ∧
    (s.running r = false ∨ s.frc F.TMG_CTRL_LOCK r ≠ 2 → exec (.flipEdge r) s = .next s) ∧
    (∀ f rest, (s.port p).delivered = f :: rest → f.mtype = 9 →
      let j := f.src.toNat
      let index := leField f.data 0 8
      (f.data.length = 24 → j ≠ s.chip → j ≤ 11 → lost s j = false → Completes (.flip p) s (fun t => t.bit F.ANN_STAT_SEEN j = true ∧
        t.fld F.ANN_STAT_FLAGS j = (f.data.getD 16 0).toNat ∧ t.fld F.ANN_STAT_INDEX j = index % 65536 ∧ misses t j = misses s j ∧
        t.tu.arrived.look j [] = s.tu.arrived.look j [] ++ [index] ∧ RegsBut s t [(.ANN_STAT, j, 0)] ∧ (t.port p).delivered = rest ∧
        t.mem = s.mem)) ∧
      (f.data.length = 24 → j ≠ s.chip → j ≤ 11 → lost s j = true → Completes (.flip p) s (fun t => t.bit F.TIME_EVT_RETURNED = true ∧
        t.tu = s.tu ∧ RegsBut s t [(.TIME_EVT, 0, 0)] ∧ t.mem = s.mem))) ∧
    (s.running 0 = false ∨ s.frc F.TMG_CTRL_LOCK 0 ≠ 2 → exec .flipAnnounceCheck s = .next s) ∧
    (let at_ : Int := s.ntInt - (min (1000 * s.fld F.ANN_CTRL_WAIT_US) (s.frc F.FLIP_NUM_NS 0 / (2 * s.flipDen 0)) : Nat)
     let due := s.flipBefore 0 at_
     let limit := max 1 (s.fld F.ANN_CTRL_MISS_LIMIT)
     s.running 0 = true → s.frc F.TMG_CTRL_LOCK 0 = 2 → (s.flipBase 0 : Int) ≤ at_ → Completes .flipAnnounceCheck s (fun t =>
       t.tu.arrived = [] ∧ t.mem = s.mem ∧ t.cores = s.cores ∧
       ∀ j < 12, let watched := (s.fld F.ANN_WATCH_CHIPS).testBit j = true ∧ j ≠ s.chip ∧ s.bit F.ANN_STAT_SEEN j = true ∧ lost s j = false
         (¬ watched → t.rd .ANN_STAT j = s.rd .ANN_STAT j ∧ lost t j = lost s j) ∧
         (watched → due ∈ s.tu.arrived.look j [] → misses t j = 0 ∧ lost t j = false) ∧
         (watched → due ∉ s.tu.arrived.look j [] → misses s j + 1 < limit → misses t j = misses s j + 1 ∧ lost t j = false) ∧
         (watched → due ∉ s.tu.arrived.look j [] → limit ≤ misses s j + 1 → lost t j = true ∧ t.bit F.TIME_EVT_PARTNER_LOST = true))) ∧
    Completes (.annLostClear v) s (fun t => t.rd .ANN_LOST = s.rd .ANN_LOST &&& ~~~(v &&& 0xFFF) ∧
      (∀ j < 12, v.getLsbD j = true → lost s j = true → misses t j = 0) ∧
      (∀ j < 12, v.getLsbD j = false ∨ lost s j = false → t.rd .ANN_STAT j = s.rd .ANN_STAT j) ∧ t.mem = s.mem)

/-! ### Inputs, commits and outputs -/

/-- R297, R298, R300, R301 and R320: a sink's link trains at a rate it advertises, is lost with what was decoded of it, has no video
after 5 ms without a line, and brings its colour packet, its encryption state and packets that are dropped; without a link the last
three change nothing, and encryption that is not advertised does not begin (log entry 229).

R299, R300, R304 and R315: line 0 of an accepted format begins a frame, a later line is taken in its order, and the last one completes a
clean frame; a row whose slot has drained is written ahead once; and a held reference expires once, when its time is over. -/
def Obligations.SinksAndInputLines : Prop :=
  (∀ (i : Fin 2) (rate : Fin 5) (f : VideoFormat) (db : BitVec 24) (encrypted type1 : Bool) (s : State), Quiet s →
    let on := s.bit F.SNK_CTRL_EN i = true
    let linked := s.bit F.SNK_STATUS_RATE i = true
    (on → 1 ≤ rate.val → rate.val ≤ min 3 (s.fld F.SNK_CTRL_MAX_RATE i) + 1 → Completes (.sinkLinkEvent i (.trained rate f)) s (fun t =>
      t.fld F.SNK_STATUS_RATE i = rate.val ∧ t.bit F.SNK_EVT_LINK i = true ∧ t.bit F.SNK_COLOR_VALID i = false ∧ (t.sink i).fmt = some f ∧
      t.mem = s.mem ∧ t.cores = s.cores)) ∧
    (on → linked → Completes (.sinkLinkEvent i .lost) s (fun t => t.fld F.SNK_STATUS_RATE i = 0 ∧ t.bit F.SNK_STATUS_VIDEO i = false ∧
      t.bit F.SNK_EVT_LINK i = true ∧ (t.sink i).inFrame = false ∧ t.bit F.SNK_STATUS_DSC i = false ∧
      t.bit F.SNK_STATUS_ENCRYPTED i = false ∧ t.bit F.SNK_STATUS_TYPE1 i = false ∧ t.mem = s.mem)) ∧
    (s.bit F.SNK_CTRL_EN i = false → ∀ ev, exec (.sinkLinkEvent i ev) s = .next s) ∧
    (s.sinkQuiet i = true → Completes (.sinkVideoTimeout i) s (fun t =>
      t.bit F.SNK_STATUS_VIDEO i = false ∧ (t.sink i).inFrame = false ∧ t.mem = s.mem)) ∧
    (s.sinkQuiet i = false → exec (.sinkVideoTimeout i) s = .next s) ∧
    (linked → Completes (.vscSdp i db) s (fun t => t.fld F.SNK_COLOR_VSC i = db.toNat ∧ t.bit F.SNK_COLOR_VALID i = true ∧
        RegsBut s t [(.SNK_COLOR, i, 0)] ∧ t.mem = s.mem) ∧
      Completes (.secondaryDataPacket i) s (fun t => Counted F.SNK_SDP_DROP_COUNT i s t ∧ RegsBut s t [(.SNK_SDP_DROP, i, 0)] ∧ t.mem = s.mem) ∧
      (encrypted = false ∨ s.bit F.SNK_STATUS_ENCRYPTED i = true ∨ s.bit F.SNK_CTRL_HDCP_EN i = true →
        Completes (.sinkHdcpChange i encrypted type1) s (fun t =>
          t.bit F.SNK_STATUS_ENCRYPTED i = encrypted ∧ t.bit F.SNK_STATUS_TYPE1 i = type1 ∧
          (s.bit F.SNK_STATUS_ENCRYPTED i ≠ encrypted ∨ s.bit F.SNK_STATUS_TYPE1 i ≠ type1 → t.bit F.SNK_EVT_HDCP i = true) ∧ t.mem = s.mem))) ∧
    (s.bit F.SNK_STATUS_ENCRYPTED i = false → s.bit F.SNK_CTRL_HDCP_EN i = false → exec (.sinkHdcpChange i true type1) s = .next s) ∧
    (s.bit F.SNK_STATUS_RATE i = false → exec (.vscSdp i db) s = .next s ∧ exec (.secondaryDataPacket i) s = .next s ∧
      exec (.sinkHdcpChange i encrypted type1) s = .next s)) ∧
  (∀ (i x : Fin 2) (line j : Nat) (comps : List (List (BitVec 12))) (s : State), Quiet s →
    let k := s.sink i
    (∀ f, k.fmt = some f → s.bit F.SNK_CTRL_EN i = true → s.accepts i f = true → s.bit F.SNK_STATUS_RATE i = true → line = 0 →
      Completes (.sinkLineArrival i line comps) s (fun t => (t.sink i).nextLine = 1 ∧ (t.sink i).inFrame = true ∧
        (t.sink i).bad = false ∧ (t.sink i).frameNo = k.frameNo + 1 ∧ (t.sink i).firstAt = s.time)) ∧
    (∀ f, k.fmt = some f → s.bit F.SNK_CTRL_EN i = true → s.accepts i f = true → s.bit F.SNK_STATUS_RATE i = true →
      k.inFrame = true → line = k.nextLine → line ≠ 0 → line < f.vact.toNat →
      Completes (.sinkLineArrival i line comps) s (fun t => (t.sink i).nextLine = line + 1 ∧
        (line + 1 < f.vact.toNat → (t.sink i).inFrame = true ∧ t.fld F.SNK_FRAMES_COUNT i = s.fld F.SNK_FRAMES_COUNT i) ∧
        (line + 1 = f.vact.toNat → k.bad = false → (t.sink i).inFrame = false ∧ t.bit F.SNK_STATUS_VIDEO i = true ∧
          t.fld F.SNK_FRAMES_COUNT i = (s.fld F.SNK_FRAMES_COUNT i + 1) % 2 ^ 32) ∧
        (line + 1 = f.vact.toNat → k.bad = true → (t.sink i).inFrame = false ∧ Counted F.SNK_BAD_COUNT i s t))) ∧
    (∀ row h f, s.bit F.INP_CTRL_EN x = true → s.tensOn x = true → j ∉ (s.path x).written → s.bit F.INP_CTRL_MODE x = false →
      s.rowOf x j = some row → s.heldFor x row = some h → (s.sink (s.fld F.INP_CTRL_SRC x)).fmt = some f →
      let drain := s.rowFill x j + 4
      s.storeOk drain 1 = true → s.clean drain 1 →
      (s.rawWord drain - BitVec.ofNat 32 (j / s.ringSlots x * max 1 (s.fld F.INP_RING_CFG_D x))).toNat < 2 ^ 31 →
        Completes (.inputRowWrite x j) s (fun t => (t.path x).written = j :: (s.path x).written ∧ (t.path x).next = (s.path x).next ∧
          t.cores = s.cores)) ∧
    (j ∈ (s.path x).written ∨ s.bit F.INP_CTRL_EN x = false → exec (.inputRowWrite x j) s = .next s) ∧
    (s.holdOver x = true → (s.motOf x).expired = false → Completes (.holdExpiry x) s (fun t => (t.motOf x).expired = true ∧
      t.bit F.MOT_EVT_HOLD_EXPIRED x = true ∧ t.mem = s.mem)) ∧
    (s.holdOver x = false ∨ (s.motOf x).expired = true → exec (.holdExpiry x) s = .next s))

/-- R348 to R350: a commit whose checks hold becomes pending with its mask, and one whose checks fail only sets REJECT; CANCEL takes a
pending commit back.  R339, R340: an access of LUT_DATA reads an entry, or writes one of the bank not in force, and advances INDEX.

R344 and R76: GO starts a colour-volume load with its source, destination and number of blocks; once its steps may write, its blocks
still to come are copied, with the CRC-32C of all, or LOAD_ERR is set and nothing is copied. -/
def Obligations.CommitsAndTables : Prop :=
  ∀ (v : Word) (s : State), Quiet s →
    let u := s.plainWrite .CMP_COMMIT (v &&& 0x3FFFFFFF)
    let mask := u.fld F.CMP_COMMIT_MASK
    let (lut, bank) := (s.fld F.LUT_SEL_LUT, s.fld F.LUT_SEL_BANK)
    let (comp, index) := (s.fld F.LUT_SEL_COMP, s.fld F.LUT_SEL_INDEX)
    (v.getLsbD 30 = false → u.commitOk mask (u.bit F.CMP_COMMIT_EPOCH) = true → Completes (.commit v) s (fun t =>
      t.bit F.CMP_STATUS_PENDING = true ∧ t.cmp.mask = mask ∧ t.cmp.gate = !u.bit F.CMP_COMMIT_EPOCH ∧ t.mem = s.mem)) ∧
    (v.getLsbD 30 = false → u.commitOk mask (u.bit F.CMP_COMMIT_EPOCH) = false → Completes (.commit v) s (fun t =>
      t.bit F.CMP_EVT_REJECT = true ∧ t.rd .CMP_STATUS = s.rd .CMP_STATUS ∧ t.cmp = s.cmp ∧ t.mem = s.mem)) ∧
    Completes .commitCancel s (fun t => t.bit F.CMP_STATUS_PENDING = false ∧ t.bit F.CMP_STATUS_HELD = false ∧
      RegsBut s t [(.CMP_COMMIT, 0, 0), (.CMP_STATUS, 0, 0)] ∧ t.mem = s.mem) ∧
    (lut < 3 → comp < 3 → index ≤ 1024 →
      let next := if index = 1024 then 0 else index + 1
      Completes (.lutDataAccess none) s (fun t => t.readData = BitVec.ofNat 32 (s.lutEntry lut bank comp index) ∧
        t.fld F.LUT_SEL_INDEX = next ∧ t.cmp = s.cmp) ∧
      (bank ≠ s.lutBank lut → Completes (.lutDataAccess (some v)) s (fun t => t.lutEntry lut bank comp index = min (v.toNat % 8192) 4096 ∧
        t.fld F.LUT_SEL_INDEX = next ∧ RegsBut s t [(.LUT_SEL, 0, 0)])) ∧
      (bank = s.lutBank lut → Completes (.lutDataAccess (some v)) s (fun t => t.bit F.LUT_EVT_REJECT = true ∧ t.cmp = s.cmp ∧
        t.fld F.LUT_SEL_INDEX = next))) ∧
    (v.getLsbD 31 = true → s.bit F.CV_STATUS_LOAD_BUSY = false → Completes (.cvLoad v) s (fun t => t.bit F.CV_STATUS_LOAD_BUSY = true ∧
      t.bit F.CV_LOAD_GO = true ∧
      t.cmp.cvLoad = some { src := (s.rd .CV_SRC).toNat * 256, block := s.fld F.CV_DST_BLOCK, blocks := t.fld F.CV_LOAD_BLOCKS } ∧
      t.mem = s.mem)) ∧
    (s.cmp.cvLoad = none → exec .cvLoadDone s = .next s) ∧
    (∀ j, s.cmp.cvLoad = some j → s.opens j.dst = true →
      let (src, n, dst) := (j.src, j.blocks, storeBase 3 + 256 * j.block)
      let done_ := 256 * j.copied
      (1 ≤ n → s.inHyper src (256 * n) = true → j.block + n ≤ 262144 → s.unwatched dst (64 * n) → s.portFree dst = true →
        (∀ b < n, s.storeOk (dst + 256 * b) 64 = true) → Completes .cvLoadDone s (fun t =>
        (∀ k, done_ ≤ k → k < 256 * n → t.byteAt (dst + k) = s.byteAt (src + k)) ∧
        (∀ a, a < dst + done_ ∨ dst + 256 * n ≤ a → t.byteAt a = s.byteAt a) ∧
        t.bit F.CV_EVT_LOAD_DONE = true ∧ t.bit F.CV_STATUS_LOAD_BUSY = false ∧ t.cmp.cvLoad = none ∧
        t.rd .CV_CRC = ~~~crc32cRun j.crc ((List.range (256 * n - done_)).map (fun k => s.byteAt (src + done_ + k))))) ∧
      (n = 0 ∨ s.inHyper src (256 * n) = false ∨ 262144 < j.block + n → Completes .cvLoadDone s (fun t =>
        t.bit F.CV_EVT_LOAD_ERR = true ∧ t.bit F.CV_STATUS_LOAD_BUSY = false ∧ t.mem = s.mem))) ∧
    (∀ j, s.cmp.cvLoad = some j → s.opens j.dst = false → exec .cvLoadDone s = .next s)

/-- R346, R352, R353, R366 and R411: APPLY leaves a legal timing for the next boundary of a raster that runs or is enabled, with the
instant at which a raster that stands then starts, brings it into force at once on one that stands disabled, and rejects another; a source's link trains within its limit, is lost, and reports its
session. -/
def Obligations.OutputControl : Prop :=
  ∀ (r o : Fin 2) (v : Word) (rate : Fin 5) (auth ok : Bool) (s : State), Quiet s →
    let u := s.plainWrite .TMG_CTRL (v &&& 0x7FFFFFFF) r
    let good := u.timingOk r = true ∧ u.periodOk r = true
    (good → (s.running r = true ∨ u.bit F.TMG_CTRL_EN r = true) → Completes (.timingApply r v) s (fun t =>
      (t.raster r).pend = some (timingRegs.map (fun q => u.rd q r) ++ flipRegs.map (fun q => u.rd q)) ∧ t.bit F.TMG_CTRL_APPLY r = true ∧
      (s.running r = false → (s.raster r).pend = none → (t.raster r).startAt = u.startInstant r) ∧
      t.force = s.force ∧ t.mem = s.mem)) ∧
    (good → s.running r = false → u.bit F.TMG_CTRL_EN r = false → Completes (.timingApply r v) s (fun t =>
      t.frc F.TMG_H_HACT r = s.fld F.TMG_H_HACT r ∧ t.frc F.TMG_V_VTOTAL r = s.fld F.TMG_V_VTOTAL r ∧
      t.frc F.TMG_PCLK_KHZ r = s.fld F.TMG_PCLK_KHZ r ∧ t.mem = s.mem)) ∧
    (¬ good → Completes (.timingApply r v) s (fun t => t.bit F.TMG_EVT_REJECT r = true ∧ t.force = s.force ∧ t.rasters = s.rasters ∧
      t.mem = s.mem)) ∧
    (s.bit F.SRC_CTRL_EN o = true →
      (1 ≤ rate.val → rate.val ≤ min 3 (s.fld F.SRC_CTRL_MAX_RATE o) + 1 → Completes (.sourceLinkEvent o (.trained rate)) s (fun t =>
        t.fld F.SRC_STATUS_RATE o = rate.val ∧ t.bit F.SRC_EVT_LINK o = true ∧ t.mem = s.mem)) ∧
      (s.bit F.SRC_STATUS_RATE o = true → ∀ ev ∈ [SourceEvent.lost, .hotPlug false], Completes (.sourceLinkEvent o ev) s (fun t =>
        t.fld F.SRC_STATUS_RATE o = 0 ∧ t.bit F.SRC_STATUS_AUTH o = false ∧ t.bit F.SRC_EVT_LINK o = true ∧ t.mem = s.mem)) ∧
      Completes (.sourceLinkEvent o (.hdcp auth ok)) s (fun t => t.bit F.SRC_STATUS_AUTH o = auth ∧ t.bit F.SRC_STATUS_TYPE1_OK o = ok ∧
        t.bit F.SRC_EVT_HDCP o = true ∧ t.mem = s.mem)) ∧
    (s.bit F.SRC_CTRL_EN o = false → ∀ ev, exec (.sourceLinkEvent o ev) s = .next s)

/-! ### The Ethernet ports -/

/-- A port takes and sends frames as they are: its link is up, and no fault injection acts on it (R391). -/
def Sys2Proof.Machine.PortOpen (s : State) (p : Nat) : Prop :=
  Quiet s ∧ s.bit F.PRT_CTRL_EN p = true ∧ s.bit F.PRT_STATUS_PHY_UP p = true ∧ s.bit F.PRT_FI_CTRL_EN p = false ∧
    ∀ h ∈ (s.port p).fiHeld, h.until_ = none

/-- The frames of `l` leave port `p` in their order, to its peer and from its own address (R369), and no other frame leaves a port. -/
def Sys2Proof.Machine.Sends (s t : State) (p : Nat) (l : List WireFrame) : Prop :=
  t.net.outbox = s.net.outbox ++ l.map (s.sentFrom p) ∧
    t.fld F.PRT_TXF_COUNT p = (s.fld F.PRT_TXF_COUNT p + l.length) % 2 ^ 32

/-- R374 to R377: a port that is UP, with a receive buffer free, acknowledges a frame in its order and delivers or relays it, or counts
one whose end-to-end CRC is wrong; it sends one NAK for a gap and an ACK for a frame it has had; without a buffer it counts the frame
alone.  It releases what an ACKN acknowledges, and goes back for what it has to send again, at a NAK or when its oldest frame is older
than RTO; RETRY_LIM rounds without a release fail the port. -/
def Obligations.HopReliability : Prop :=
  ∀ (p : Fin 4) (f : Frame) (n : BitVec 16) (s : State), PortOpen s p → s.bit F.PLT_CTRL_EN = true → s.pulet p = 2 → (s.port p).waiting = [] →
    let k := s.port p
    let after (a : BitVec 16) := k.retx.filter (fun e => e.1.seq == a || decide (2 ^ 15 ≤ (a - e.1.seq).toNat))
    let again (a : BitVec 16) : List WireFrame := (after a).map (fun e => .data { e.1 with ackn := k.rxSeq })
    let limit := max 1 (s.fld F.PRT_LINK_RETRY_LIM p)
    let toPort (q : Nat) : Prop := f.hostDst = false ∧ f.dst.toNat ≠ s.chip ∧ f.dst.toNat ≤ 11 ∧ s.bit F.PLT_ROUTE_VALID f.dst.toNat = true ∧
      s.fld F.PLT_ROUTE_PORT f.dst.toNat = q
    (f.seq = k.rxSeq → s.noBuffer p f = false →
      (f.hostDst = false → f.dst.toNat = s.chip → f.dst ≠ 15 → f.crc = frameCheck f → f.mtype.toNat ∈ actingTypes →
        Completes (.data p f) s (fun t => Sends s t p [.ack (k.rxSeq + 1)] ∧ (t.port p).rxSeq = k.rxSeq + 1 ∧
          (t.port p).delivered = k.delivered ++ [f] ∧ t.mem = s.mem ∧ t.cores = s.cores)) ∧
      (f.hostDst = false → f.dst.toNat = s.chip → f.dst ≠ 15 → f.crc ≠ frameCheck f → answered f = false →
        Completes (.data p f) s (fun t => Sends s t p [.ack (k.rxSeq + 1)] ∧ (t.port p).rxSeq = k.rxSeq + 1 ∧
          Counted F.PLT_E2E_ERR_COUNT 0 s t ∧ t.bit F.PLT_EVT_E2E = true ∧ (t.port p).delivered = k.delivered ∧ t.mem = s.mem)) ∧
      (∀ q, toPort q → q ≠ p.val → PortOpen s q → s.pulet q = 2 → (s.port q).waiting = [] → (s.port q).retx.length < s.txWindow q → f.hops ≠ 0 →
        let g := { f with hops := f.hops - 1, seq := (s.port q).txSeq, ackn := (s.port q).rxSeq }
        Completes (.data p f) s (fun t =>
          t.net.outbox = s.net.outbox ++ [s.sentFrom p (.ack (k.rxSeq + 1)), s.sentFrom q (.data g)] ∧
          (t.port q).retx = (s.port q).retx ++ [(g, s.time)] ∧ (t.port q).txSeq = (s.port q).txSeq + 1 ∧
          (t.port p).rxSeq = k.rxSeq + 1 ∧ (t.port p).delivered = k.delivered ∧
          t.fld F.PLT_RELAY_COUNT = (s.fld F.PLT_RELAY_COUNT + 1) % 2 ^ 32 ∧ t.mem = s.mem)) ∧
      (∀ q, toPort q → (f.hops = 0 ∨ s.pulet q ≠ 2) → Completes (.data p f) s (fun t => Sends s t p [.ack (k.rxSeq + 1)] ∧
        (t.port p).rxSeq = k.rxSeq + 1 ∧ Counted F.PLT_DISCARD_COUNT 0 s t ∧ (t.port p).delivered = k.delivered ∧ t.mem = s.mem))) ∧
    (s.noBuffer p f = true → Completes (.data p f) s (fun t => Sends s t p [] ∧ Counted F.PRT_NOBUF_COUNT p s t ∧
      (t.port p).rxSeq = k.rxSeq ∧ (t.port p).delivered = k.delivered ∧ t.mem = s.mem)) ∧
    (f.seq ≠ k.rxSeq → s.noBuffer p f = false → Completes (.data p f) s (fun t => (t.port p).rxSeq = k.rxSeq ∧ (t.port p).delivered = k.delivered ∧ t.mem = s.mem ∧
      Sends s t p (if (f.seq - k.rxSeq).toNat < 2 ^ 15 then (if k.nakSent then [] else [.nak k.rxSeq]) else [.ack k.rxSeq]))) ∧
    Completes (.ack p n) s (fun t => (t.port p).retx = after n ∧ Sends s t p [] ∧ (t.port p).txSeq = k.txSeq ∧ t.mem = s.mem) ∧
    ((after n).length < k.retx.length ∨ k.rounds < limit → Completes (.nak p n) s (fun t => Sends s t p (again n) ∧
      (t.port p).retx.map (fun e => e.1.seq) = (after n).map (fun e => e.1.seq) ∧ t.mem = s.mem)) ∧
    (s.retxDue p = true → k.rounds < limit → Completes (.retransmitTimeout p) s (fun t =>
      Sends s t p (k.retx.map (fun e => .data { e.1 with ackn := k.rxSeq })) ∧ (t.port p).rounds = k.rounds + 1 ∧
      t.fld F.PRT_RETX_COUNT p = min (s.fld F.PRT_RETX_COUNT p + k.retx.length) (2 ^ 32 - 1) ∧ t.pulet p = 2 ∧ t.mem = s.mem)) ∧
    (s.retxDue p = true → limit ≤ k.rounds → s.log.length < 64 → Completes (.retransmitTimeout p) s (fun t => Sends s t p [] ∧ t.pulet p = 3 ∧
      (t.port p).retx = [] ∧ t.bit F.PRT_EVT_RETRY_EXHAUSTED p = true ∧
      t.log = s.log ++ [{ fault := { code := 0x08, cls := 8, unit := p }, seq := s.logSeq, time := s.nt }] ∧ t.mem = s.mem)) ∧
    (s.retxDue p = false → exec (.retransmitTimeout p) s = .next s)

/-- R368, R369 and R373: the link states of a port, the frames of its synchronisation, and the frames that are only counted.  A port
that has sent and received SYNC_ACK is UP with both sequences 0; while it is SYNCING it sends SYNC, 10 µs after the one before.  A frame
from the wire is sorted by its addresses, length and EtherType: one that no layer takes changes nothing, and a DATA frame, an ACK or a
Sync acts as the command of it.

R391: fault injection drops, sends with one bit of the frame or of its data changed, every N-th eligible frame; writing EN with 1 starts
its counts, with 0 lets every held frame go in order; and a delay that ends lets its frame and those behind it go. -/
def Obligations.PortLinksAndFaultInjection : Prop :=
  (∀ (p : Fin 4) (slow master : Bool) (bytes : List Byte) (s : State), Quiet s →
    let k := s.port p
    let same (t : State) : Prop := t.mem = s.mem ∧ t.cores = s.cores
    let heard (t : State) : Prop := t.fld F.PRT_RXF_COUNT p = (s.fld F.PRT_RXF_COUNT p + 1) % 2 ^ 32 ∧ same t
    let up (t : State) : Prop := t.pulet p = 2 ∧ (t.port p).txSeq = 0 ∧ (t.port p).rxSeq = 0 ∧ t.bit F.PRT_EVT_SYNCED p = true
    let link := s.bit F.PRT_STATUS_PHY_UP p
    (s.bit F.PRT_CTRL_EN p = true → link = false → (s.fld F.PRT_CTRL_SPEEDS p).testBit (if slow then 1 else 0) = true →
      Completes (.phyLinkUp p slow master) s (fun t => t.bit F.PRT_STATUS_PHY_UP p = true ∧ t.bit F.PRT_STATUS_SPEED p = slow ∧
        t.bit F.PRT_STATUS_MASTER p = master ∧ t.pulet p = 1 ∧ (t.port p).retx = [] ∧ t.bit F.PRT_EVT_LINK_UP p = true ∧
        RegsBut s t [(.PRT_STATUS, p, 0), (.PRT_EVT, p, 0)] ∧ same t)) ∧
    (s.bit F.PRT_CTRL_EN p = false ∨ link = true → exec (.phyLinkUp p slow master) s = .next s) ∧
    (link = true → Completes (.phyLinkDown p) s (fun t => t.bit F.PRT_STATUS_PHY_UP p = false ∧ t.pulet p = 0 ∧ (t.port p).retx = [] ∧
      t.bit F.PRT_EVT_LINK_DOWN p = true ∧ RegsBut s t [(.PRT_STATUS, p, 0), (.PRT_EVT, p, 0)] ∧ same t)) ∧
    (link = false → exec (.phyLinkDown p) s = .next s) ∧
    (s.bit F.PRT_CTRL_EN p = true ∨ link = false → Completes (.portResync p) s (fun t => t.pulet p = 1 ∧ (t.port p).retx = [] ∧
      (t.port p).ackSent = false ∧ (t.port p).ackSeen = false ∧ RegsBut s t [(.PRT_STATUS, p, 0)] ∧ same t)) ∧
    (s.pulet p ≠ 1 ∨ s.bit F.PLT_CTRL_EN = false ∨ s.lapsed k.syncAt 10000 = false → exec (.syncTimer p) s = .next s) ∧
    (s.bit F.PRT_CTRL_EN p = false → ∀ i ∈ [Instr.sync p, .syncAck p, .otherFrame ⟨p, bytes⟩, .announce p, .fcsError p], exec i s = .next s) ∧
    (s.sortFrame p bytes = none → exec (.otherFrame ⟨p, bytes⟩) s = .next s) ∧
    (∀ f, s.sortFrame p bytes = some (.data f) → exec (.otherFrame ⟨p, bytes⟩) s = exec (.data p f) s) ∧
    (∀ n, s.sortFrame p bytes = some (.ack n) → exec (.otherFrame ⟨p, bytes⟩) s = exec (.ack p n) s) ∧
    (∀ m, s.sortFrame p bytes = some (.ptpSync m) → exec (.otherFrame ⟨p, bytes⟩) s = exec (.ptpSync p m) s) ∧
    (PortOpen s p →
      Completes (.fcsError p) s (fun t => Counted F.PRT_FCS_ERR_COUNT p s t ∧ RegsBut s t [(.PRT_FCS_ERR, p, 0)] ∧ t.net = s.net ∧ same t) ∧
      (s.sortFrame p bytes = some .other → Completes (.otherFrame ⟨p, bytes⟩) s (fun t => Counted F.PRT_OTHER_COUNT p s t ∧ RegsBut s t [(.PRT_OTHER, p, 0), (.PRT_RXF, p, 0)] ∧
        t.net = s.net ∧ heard t)) ∧
      Completes (.announce p) s (fun t => RegsBut s t [(.PRT_RXF, p, 0)] ∧ t.net = s.net ∧ heard t) ∧
      (s.bit F.PLT_CTRL_EN = true →
        (s.pulet p = 1 → s.lapsed k.syncAt 10000 = true → Completes (.syncTimer p) s (fun t => Sends s t p [.sync k.rxSeq] ∧
          t.port p = { k with syncAt := some s.time } ∧ same t)) ∧
        (s.pulet p ≠ 1 → Completes (.sync p) s (fun t => Sends s t p [.syncAck k.rxSeq] ∧ t.port p = k ∧ heard t) ∧
          Completes (.syncAck p) s (fun t => Sends s t p [] ∧ t.port p = k ∧ heard t)) ∧
        (s.pulet p = 1 → k.ackSeen = false → Completes (.sync p) s (fun t => Sends s t p [.syncAck k.rxSeq] ∧ t.pulet p = 1 ∧
          (t.port p).ackSent = true ∧ heard t)) ∧
        (s.pulet p = 1 → k.ackSeen = true → k.waiting = [] → Completes (.sync p) s (fun t => Sends s t p [.syncAck k.rxSeq] ∧ up t ∧ heard t)) ∧
        (s.pulet p = 1 → k.ackSent = false → Completes (.syncAck p) s (fun t => Sends s t p [] ∧ t.pulet p = 1 ∧
          (t.port p).ackSeen = true ∧ heard t)) ∧
        (s.pulet p = 1 → k.ackSent = true → k.waiting = [] → Completes (.syncAck p) s (fun t => Sends s t p [] ∧ up t ∧ heard t))))) ∧
  (∀ (p : Fin 4) (v : Word) (rx : Bool) (f : WireFrame) (s : State), Quiet s →
    let k := s.port p
    let action := s.fld F.PRT_FI_CTRL_ACTION p
    let leaves (h : Held) : Sent := { s.sentFrom p h.frame with flip := h.bad }
    let plainOut (l : List Held) : Prop := s.bit F.PRT_STATUS_PHY_UP p = true ∧ ∀ h ∈ l, h.rx = false ∧ h.frame.kind ≤ 1
    (s.bit F.PRT_FI_CTRL_EN p = true → s.bit F.PRT_FI_CTRL_DIR p = rx → f.kind ≤ s.fld F.PRT_FI_CTRL_MATCH p →
      s.bit F.PRT_FI_SEL_MODE p = false → s.fld F.PRT_FI_LIMIT_COUNT p = 0 → k.fiHeld = [] → action < 3 → (action = 2 → f.payload.isEmpty = false) →
      let hit := (k.fiCount + 1) % max 1 (s.fld F.PRT_FI_SEL_N p) = 0
      let (out, t) := s.inject p rx f
      (t.port p).fiCount = k.fiCount + 1 ∧
      (hit → out = (if action = 1 then [(f, some (k.fiCount + 1))] else if action = 2 then [(f.corrupt (k.fiCount + 1), none)] else []) ∧
        Counted F.PRT_FI_COUNT_COUNT p s t) ∧
      (¬ hit → out = [(f, none)] ∧ t.regs = s.regs)) ∧
    (v.getLsbD 0 = true → Completes (.fiCtrlWrite p v) s (fun t => t.rd .PRT_FI_CTRL p = (s.rd .PRT_FI_CTRL p &&& 0xFFFFFF80) ||| (v &&& 0x7F) ∧
      (t.port p).fiCount = 0 ∧ (t.port p).fiLfsr.toNat = (2 * s.fld F.PRT_FI_SEL_SEED p + 1) % 65536 ∧ t.rd .PRT_FI_COUNT p = 0 ∧
      (t.port p).fiHeld = k.fiHeld ∧ RegsBut s t [(.PRT_FI_CTRL, p, 0), (.PRT_FI_COUNT, p, 0)] ∧ t.mem = s.mem)) ∧
    (v.getLsbD 0 = false → plainOut k.fiHeld → Completes (.fiCtrlWrite p v) s (fun t => t.bit F.PRT_FI_CTRL_EN p = false ∧
      (t.port p).fiHeld = [] ∧ t.net.outbox = s.net.outbox ++ k.fiHeld.map leaves ∧ t.mem = s.mem)) ∧
    (∀ h r u, k.fiHeld = h :: r → plainOut k.fiHeld → h.until_ = some u → s.reached u = false → exec (.fiHoldRelease p) s = .next s) ∧
    (∀ h r u, k.fiHeld = h :: r → plainOut k.fiHeld → h.until_ = some u → s.reached u = true → (∀ g ∈ r, g.until_ = none) →
      (∀ g ∈ k.fiHeld, g.frames = 0) → Completes (.fiHoldRelease p) s (fun t => (t.port p).fiHeld = [] ∧ t.net.outbox = s.net.outbox ++ k.fiHeld.map leaves ∧ t.mem = s.mem)) ∧
    ((∀ h ∈ k.fiHeld, h.until_ = none) → exec (.fiHoldRelease p) s = .next s))

/-! ### Windows, requests and DMA channels -/

/-- What a frame of this device's needs to leave at once by port `q`: its route goes there, and the port is UP with room (R374, R376). -/
def Sys2Proof.Machine.LeavesBy (s : State) (host : Bool) (dst q : Nat) : Prop :=
  PortOpen s q ∧ s.pulet q = 2 ∧ (s.port q).waiting = [] ∧ (s.port q).retx.length < s.txWindow q ∧
    if host then s.fld F.PLT_ROUTE_PORT 12 = q
    else dst ≠ s.chip ∧ dst ≤ 11 ∧ s.bit F.PLT_ROUTE_VALID dst = true ∧ s.fld F.PLT_ROUTE_PORT dst = q

/-- The answer to a request leaves at once by port `q` (R371). -/
abbrev Sys2Proof.Machine.Reaches (s : State) (f : Frame) (q : Nat) : Prop := LeavesBy s f.hostSrc f.src.toNat q

/-- One frame leaves, by port `q`, as its origin sends it (R370, R374, R376). -/
def Sys2Proof.Machine.SendsFrame (s t : State) (q : Nat) (g : Frame) : Prop :=
  t.net.outbox = s.net.outbox ++
    [s.sentFrom q (.data { sealed g with seq := (s.port q).txSeq, ackn := (s.port q).rxSeq })]

/-- A run of bytes lies in words that hold no stored-bit error and no poison, and on which nothing waits. -/
def Sys2Proof.Machine.State.open_ (s : State) (a n : Nat) : Prop :=
  ∀ i < (a % 4 + n + 3) / 4, s.clean (a / 4 * 4 + 4 * i) 1 ∧ s.unwatched (a / 4 * 4 + 4 * i) 1

/-- Memory differs in the bytes of `data` at `a`, and there it holds them. -/
def Sys2Proof.Machine.Stored (s t : State) (a : Nat) (data : List Byte) : Prop :=
  (∀ i < data.length, t.byteAt (a + i) = data.getD i 0) ∧ ∀ y, y < a ∨ a + data.length ≤ y → t.byteAt y = s.byteAt y

/-- R379, R380 and R382: OPEN, CLOSE and the end of a close of the window WIN_SEL selects; what they do not take only sets WIN_REJECT, or
does nothing.  R381: the three checks of a request, in their order. -/
def Obligations.Windows : Prop :=
  ∀ (v : Word) (w : Fin 256) (f : Frame) (right n : Nat) (s : State), Quiet s →
    let x := s.fld F.WIN_SEL_WIN
    let st := s.fld F.WIN_STATUS_STATE x
    let y := f.win.toNat
    let current := s.fld F.WIN_STATUS_STATE y = 1 ∧ s.fld F.WIN_STATUS_GEN y = f.gen.toNat
    let origin := if f.hostSrc then 12 else f.src.toNat
    let allowed := (f.hostSrc = true ∨ f.src.toNat ≤ 11) ∧ (s.fld F.WIN_PEERS_PEERS y).testBit origin = true ∧
      (s.fld F.WIN_PEERS_RIGHTS y).testBit right = true
    (v.getLsbD 0 = true → v.getLsbD 1 = false →
      (st = 0 → s.winSize x ≠ 0 → s.inMemory (s.winBase x) (s.winSize x) = true → Completes (.windowOpen v) s (fun t =>
        t.fld F.WIN_STATUS_STATE x = 1 ∧ t.fld F.WIN_STATUS_GEN x = s.fld F.WIN_STATUS_GEN x ∧
        RegsBut s t [(.WIN_STATUS, x, 0), (.WIN_CLOSED_CNT, x, 0), (.WIN_DENIED_CNT, x, 0), (.WIN_OVERRUN_CNT, x, 0)] ∧ t.mem = s.mem)) ∧
      (st ≠ 0 ∨ s.winSize x = 0 ∨ s.inMemory (s.winBase x) (s.winSize x) = false → exec (.windowOpen v) s = .next (s.setBit F.PLT_EVT_WIN_REJECT))) ∧
    (v.getLsbD 0 = false → v.getLsbD 1 = true →
      (st = 1 → Completes (.windowClose v) s (fun t => t.fld F.WIN_STATUS_STATE x = 2 ∧
        t.fld F.WIN_STATUS_GEN x = s.fld F.WIN_STATUS_GEN x ∧ RegsBut s t [(.WIN_STATUS, x, 0)] ∧ t.mem = s.mem)) ∧
      (st ≠ 1 → exec (.windowClose v) s = .next s)) ∧
    (s.fld F.WIN_STATUS_STATE w = 2 → Completes (.windowCloseDone w) s (fun t => t.fld F.WIN_STATUS_STATE w = 0 ∧
      t.fld F.WIN_STATUS_GEN w = (s.fld F.WIN_STATUS_GEN w + 1) % 65536 ∧ t.bit F.PLT_EVT_WIN_CLOSED_DONE = true ∧
      RegsBut s t [(.WIN_STATUS, w, 0), (.PLT_EVT, 0, 0)] ∧ t.mem = s.mem)) ∧
    (s.fld F.WIN_STATUS_STATE w ≠ 2 → exec (.windowCloseDone w) s = .next s) ∧
    (¬ current → s.windowStatus f right n = 0x06) ∧
    (current → ¬ allowed → s.windowStatus f right n = 0x07) ∧
    (current → allowed → s.winSize y < f.offset.toNat + n → s.windowStatus f right n = 0x05) ∧
    (current → allowed → f.offset.toNat + n ≤ s.winSize y → s.windowStatus f right n = 0)

/-- R381, R384 and R371, of a request whose store takes accesses (R76, R88; it waits where it does not, and its turn at the store's port
has come, R74): an accepted WRITE changes exactly its bytes, an accepted READ answers them, an accepted ATOMIC performs its
operation on one word; a refused one changes no byte of memory, counts the refusal and answers with its status; and a
management transaction that its origin may not make answers WIN_DENIED. -/
def Obligations.WindowRequests : Prop :=
  ∀ (p : Fin 4) (q : Nat) (f : Frame) (r : List Frame) (s : State), Quiet s → (s.port p).delivered = f :: r → Reaches s f q →
    let a := s.winBase f.win.toNat + f.offset.toNat
    let len := f.data.length
    let n := f.aux.toNat
    let answers (t : State) (st : Nat) : Prop := SendsFrame s t q (s.reply f st) ∧ t.cores = s.cores
    let counted (t : State) (st : Nat) : Prop := t.mem = s.mem ∧
      if st = 0x06 then Counted F.WIN_CLOSED_CNT_COUNT f.win.toNat s t ∧ t.bit F.PLT_EVT_WIN_CLOSED = true
      else Counted F.WIN_DENIED_CNT_COUNT f.win.toNat s t ∧ t.bit F.PLT_EVT_WIN_DENIED = true
    let w := s.rawWord a
    let wrote (t : State) (v : Word) : Prop := Stored s t a [byteOf v 0, byteOf v 1, byteOf v 2, byteOf v 3]
    let got (t : State) (flag : Bool) : Prop :=
      SendsFrame s t q { s.reply f 0 with data := bytesOfWords [w, if flag then 1 else 0] } ∧ t.cores = s.cores
    let open_ := s.opens a = true
    (¬ open_ → ∀ i ∈ [Instr.write p, .read p, .atomic p], exec i s = .next s) ∧
    (f.mtype = 1 → open_ →
      (s.windowStatus f 0 len = 0 → s.portFree a = true → s.servedNet a len = true → s.open_ a len → Completes (.write p) s (fun t => Stored s t a f.data ∧
        (f.ackReq = true → answers t 0) ∧ (f.ackReq = false → t.net.outbox = s.net.outbox ∧ (t.port p).delivered = r))) ∧
      (∀ st, s.windowStatus f 0 len = st → st ≠ 0 → Completes (.write p) s (fun t => counted t st ∧ (f.ackReq = true → answers t st) ∧
        (f.ackReq = false → t.net.outbox = s.net.outbox)))) ∧
    (f.mtype = 3 → open_ →
      (s.windowStatus f 1 n = 0 → s.portFree a = true → 4 ≤ n → n ≤ 8192 → n % 4 = 0 → s.servedNet a n = true → s.open_ a n → Completes (.read p) s (fun t =>
        SendsFrame s t q { s.reply f 0 with data := (List.range n).map (fun i => s.byteAt (a + i)) } ∧ t.mem = s.mem ∧ t.cores = s.cores)) ∧
      (∀ st, s.windowStatus f 1 n = st → st ≠ 0 → Completes (.read p) s (fun t => counted t st ∧ answers t st))) ∧
    (f.mtype = 4 → open_ →
      (s.windowStatus f 2 4 = 0 → s.portFree a = true → s.msOk a = true → s.clean a 1 → s.unwatched a 1 →
        (∀ cond v delta, atomicOp f = some (.compare cond v delta) → Completes (.atomic p) s (fun t => got t (condHolds cond w v) ∧
          (condHolds cond w v = true → wrote t (w + delta.signExtend 32)) ∧ (condHolds cond w v = false → t.mem = s.mem))) ∧
        (∀ v, atomicOp f = some (.add v) → Completes (.atomic p) s (fun t => got t true ∧ wrote t (w + v))) ∧
        (∀ old new, atomicOp f = some (.swap old new) → Completes (.atomic p) s (fun t => got t (w == old) ∧
          wrote t (if w = old then new else w)))) ∧
      (∀ st, s.windowStatus f 2 4 = st → st ≠ 0 → Completes (.atomic p) s (fun t => counted t st ∧ answers t st))) ∧
    (f.mtype = 6 → (s.port p).mgmt = none →
      (s.mayManage f = false → Completes (.mgmtRd p) s (fun t => answers t 0x07 ∧ t.mem = s.mem)) ∧
      (∀ reg i j, s.mayManage f = true → n = 1 → regServed f.offset.toNat = true → regAt f.offset.toNat = some (reg, i, j) →
        reg ∈ [RegId.WIN_SEL, .PLT_MGMT, .PRT_LINK, .PRT_MAC_LO, .TIME_SERVO] →
        Completes (.mgmtRd p) s (fun t => SendsFrame s t q { s.reply f 0 with data := bytesOfWords [s.rd reg i j] } ∧ t.mem = s.mem))) ∧
    (f.mtype = 7 →
      (s.mayManage f = false → Completes (.mgmtWr p) s (fun t => answers t 0x07 ∧ t.mem = s.mem)) ∧
      (∀ reg i j v, s.mayManage f = true → f.data = [byteOf v 0, byteOf v 1, byteOf v 2, byteOf v 3] → regServed f.offset.toNat = true →
        regAt f.offset.toNat = some (reg, i, j) → reg ∈ [RegId.WIN_SEL, .PLT_MGMT, .TIME_SERVO] →
        Completes (.mgmtWr p) s (fun t => answers t 0 ∧ t.rd reg i j = plainValue reg.row (s.rd reg i j) v ∧ t.mem = s.mem)))

/-- R244, R383, R388 and R389, of a frame whose store takes accesses and at whose ports its turn has come: a SPLICE whose drain word has reached d writes its data and its fill word, else poisons the fill word and
counts an overrun; a multicast frame is applied where its OFFSET is the one its pair expects, or it is the first, and every one of a
known pair is answered with the expected OFFSET. -/
def Obligations.SplicesAndMulticast : Prop :=
  ∀ (p : Fin 4) (f : Frame) (r : List Frame) (s : State), Quiet s → (s.port p).delivered = f :: r →
    let at_ (ofs : Nat) : Nat := s.winBase f.win.toNat + ofs
    let a := at_ f.offset.toNat
    (s.opens a = false → ∀ i ∈ [Instr.splice p, .mcast p], exec i s = .next s) ∧
    (f.mtype = 2 → s.opens a = true →
      let n := f.aux.toNat
      let token := f.data.drop n
      let fill := at_ (leField token 0 5)
      let v : Word := BitVec.ofNat 32 (leField token 8 4)
      let d : Word := BitVec.ofNat 32 (leField token 12 4)
      (s.windowStatus f 0 n = 0 → leField token 0 5 + 8 ≤ s.winSize f.win.toNat → f.data.length = n + 16 → s.servedNet a n = true →
        s.msOk fill = true → s.msOk (fill + 4) = true → s.open_ a n → s.open_ fill 8 → s.portFree a = true → s.portFree fill = true →
        ((s.rawWord (fill + 4) - d).toNat < 2 ^ 31 → Completes (.splice p) s (fun t =>
          (∀ i < n, a + i < fill ∨ fill + 4 ≤ a + i → t.byteAt (a + i) = f.data.getD i 0) ∧ t.rawWord fill = v ∧
          t.poison.look fill false = f.poison ∧
          (∀ y, (y < a ∨ a + n ≤ y) → (y < fill ∨ fill + 4 ≤ y) → t.byteAt y = s.byteAt y) ∧ t.net.outbox = s.net.outbox)) ∧
        (2 ^ 31 ≤ (s.rawWord (fill + 4) - d).toNat → Completes (.splice p) s (fun t => t.rawWord fill = v ∧ t.poison.look fill false = true ∧
          Counted F.WIN_OVERRUN_CNT_COUNT f.win.toNat s t ∧ (∀ y, y < fill ∨ fill + 4 ≤ y → t.byteAt y = s.byteAt y) ∧
          t.net.outbox = s.net.outbox))) ∧
      (∀ st, s.windowStatus f 0 n = st → st ≠ 0 → Completes (.splice p) s (fun t => t.mem = s.mem ∧ t.net.outbox = s.net.outbox))) ∧
    (f.mtype = 5 → s.opens a = true →
      let ofs := f.offset.toNat
      let len := f.data.length
      (∀ q x, Reaches s f q → f.first = false → s.mcExpect f = some x →
        let replies (t : State) (st y : Nat) : Prop := SendsFrame s t q { s.reply f st with offset := BitVec.ofNat 40 y }
        (ofs = x → s.windowStatus f 0 len = 0 → s.servedNet a len = true → s.open_ a len → s.portFree a = true → Completes (.mcast p) s (fun t =>
          Stored s t a f.data ∧ t.mcExpect f = some ((x + len) % 2 ^ 40) ∧ replies t 0 (x + len))) ∧
        (∀ st, ofs = x → s.windowStatus f 0 len = st → st ≠ 0 → Completes (.mcast p) s (fun t => t.mem = s.mem ∧ t.mcExpect f = some x ∧
          replies t st x)) ∧
        (ofs < x → Completes (.mcast p) s (fun t => t.mem = s.mem ∧ t.mcExpect f = some x ∧ replies t 0 x)) ∧
        (x < ofs → Completes (.mcast p) s (fun t => t.mem = s.mem ∧ t.mcExpect f = some x ∧ Counted F.PLT_DISCARD_COUNT 0 s t ∧
          replies t 0 x))) ∧
      (∀ q, Reaches s f q → f.first = true → s.windowStatus f 0 len = 0 → s.servedNet a len = true → s.open_ a len → s.portFree a = true →
        Completes (.mcast p) s (fun t => Stored s t a f.data ∧ t.mcExpect f = some ((ofs + len) % 2 ^ 40) ∧
          SendsFrame s t q { s.reply f 0 with offset := BitVec.ofNat 40 (ofs + len) })) ∧
      (f.first = false → s.mcExpect f = none → Completes (.mcast p) s (fun t => t.mem = s.mem ∧ Counted F.PLT_DISCARD_COUNT 0 s t ∧
        t.net.outbox = s.net.outbox)))

/-- R385, R386, R387 and R390: GO starts a channel that is not ACTIVE or ends it at once; a channel of mode 0, 1 or 2 issues its next
transaction; ABORT stops it; a transaction without a response within PLT_TXN_TMO stops it with LINK_RETRY_EXHAUSTED; a member whose
oldest transaction is older than PLT_MC.RTO has them again alone, and fails after RETRIES; and a splice channel sends the halo of a
line that is filled.  A channel waits while the store of its range takes no access (R76, R88), and reads when its turn comes (R74). -/
def Obligations.DmaChannels : Prop :=
  ∀ (ch : Fin 32) (v : Word) (tag : BitVec 16) (member : Fin 12) (q : Nat) (s : State), Quiet s →
    let c := ch.val
    let k := s.dma c
    let len := s.fld F.DMA_LEN_BYTES c
    let loc := s.fld F.DMA_LOCAL_LO_ADDR c * 4 + s.fld F.DMA_LOCAL_HI_ADDR c * 2 ^ 32
    let mode := s.fld F.DMA_CTRL_MODE c
    let active := s.fld F.DMA_STATUS_STATE c = 1
    let n := min 8192 (len - k.next)
    let bytes (a n : Nat) : List Byte := (List.range n).map (fun i => s.byteAt (a + i))
    let readable (a n : Nat) : Prop := s.servedNet a n = true ∧ s.portFree a = true ∧ ∀ i < (a % 4 + n + 3) / 4, s.clean (a / 4 * 4 + 4 * i) 1
    let stopped (t : State) (code : Nat) : Prop := t.fld F.DMA_STATUS_STATE c = 3 ∧ t.fld F.DMA_STATUS_CODE c = code ∧
      t.bit F.DMA_CTRL_GO c = false ∧ (t.fld F.PLT_DMA_EVT_END).testBit c = true ∧ t.mem = s.mem ∧ t.net.outbox = s.net.outbox
    let started (t : State) : Prop := t.fld F.DMA_STATUS_STATE c = 1 ∧ t.fld F.DMA_STATUS_CODE c = 0 ∧ t.fld F.DMA_DONE_BYTES c = 0 ∧
      t.bit F.DMA_CTRL_GO c = true ∧ t.fld F.DMA_CTRL_MODE c = v.toNat % 4 ∧ t.mem = s.mem ∧ t.net.outbox = s.net.outbox
    let legal := len % 4 = 0 ∧ 4 ≤ len ∧ len ≤ 2 ^ 31 ∧ s.inMemory loc len = true
    let shape := s.fld F.DMA_SPL_SHAPE_BYTES c % 4 = 0 ∧ s.fld F.DMA_SPL_SRC_PLANES c * s.fld F.DMA_SPL_SHAPE_BYTES c ≤ 8176
    let towards := LeavesBy s (s.bit F.DMA_TARGET_HOST c) (s.fld F.DMA_TARGET_CHIP c) q
    (¬ active →
      (v.toNat % 4 < 2 → legal → Completes (.dmaGo ch v) s (fun t => started t ∧ t.dma c = {})) ∧
      (v.toNat % 4 = 2 → legal → s.fld F.DMA_MC_MEMBERS c ≠ 0 → Completes (.dmaGo ch v) s (fun t => started t ∧
        t.fld F.DMA_MC_ATT_ATT c = s.fld F.DMA_MC_MEMBERS c ∧ t.fld F.DMA_MC_FAIL_FAIL c = 0)) ∧
      (¬ legal → Completes (.dmaGo ch v) s (fun t => stopped t 0x05)) ∧
      (v.toNat % 4 = 3 → legal → shape → Completes (.dmaGo ch v) s (fun t => started t ∧ t.dma c = {})) ∧
      (v.toNat % 4 = 3 → legal → ¬ shape → Completes (.dmaGo ch v) s (fun t => stopped t 0x04)) ∧
      (∀ i ∈ [Instr.dmaAbort ch, .dmaTxnIssue ch, .dmaTxnTimeout ch tag, .mcastRepairTimeout ch member, .spliceLineSend ch],
        exec i s = .next s)) ∧
    (active → v.getLsbD 30 = false → exec (.dmaGo ch v) s = .next s) ∧
    (s.opens loc = false → ∀ i ∈ [Instr.dmaTxnIssue ch, .mcastRepairTimeout ch member, .spliceLineSend ch], exec i s = .next s) ∧
    (active → k.stopping = none →
      (mode < 2 → k.txns = [] → Completes (.dmaAbort ch) s (fun t => stopped t 0 ∧ t.log = s.log)) ∧
      (mode < 2 → k.txns ≠ [] → Completes (.dmaAbort ch) s (fun t => (t.dma c).stopping = some 0 ∧ (t.dma c).txns = k.txns ∧
        t.regs = s.regs ∧ t.mem = s.mem)) ∧
      (mode = 3 → Completes (.dmaAbort ch) s (fun t => stopped t 0 ∧ t.log = s.log)) ∧
      (mode = 0 → s.opens loc = true → k.txns.length < 8 → k.next < len → readable (loc + k.next) n → towards → Completes (.dmaTxnIssue ch) s (fun t =>
        SendsFrame s t q { s.dmaFrame c 1 k.next with ackReq := true, tag := k.tagNext, data := bytes (loc + k.next) n } ∧
        (t.dma c).next = k.next + n ∧ (t.dma c).txns = k.txns ++ [{ tag := k.tagNext, offset := k.next, length := n, sentAt := s.time }] ∧
        t.mem = s.mem)) ∧
      (mode = 0 → s.opens loc = true → k.txns = [] → k.next < len → s.servedNet (loc + k.next) n = false → Completes (.dmaTxnIssue ch) s (fun t => stopped t 0x05)) ∧
      (mode = 1 → s.opens loc = true → k.txns.length < 8 → k.next < len → towards → Completes (.dmaTxnIssue ch) s (fun t =>
        SendsFrame s t q { s.dmaFrame c 3 k.next with tag := k.tagNext, aux := BitVec.ofNat 32 n } ∧
        (t.dma c).next = k.next + n ∧ (t.dma c).txns = k.txns ++ [{ tag := k.tagNext, offset := k.next, length := n, sentAt := s.time }] ∧
        t.mem = s.mem)) ∧
      (mode < 2 → (8 ≤ k.txns.length ∨ len ≤ k.next) → exec (.dmaTxnIssue ch) s = .next s) ∧
      (mode = 2 → s.opens loc = true → k.catchUp = none → k.next < len → readable (loc + k.next) n → (∀ m ∈ k.members, m.outstanding < 32) →
        (∃ m ∈ k.members, m.attached = true ∧ m.failed = none ∧ m.acked < len) →
        s.bit F.PLT_MCG_LOCAL (s.fld F.DMA_MC_GROUP c) = false → s.fld F.PLT_MCG_PORTS (s.fld F.DMA_MC_GROUP c) = 2 ^ q → q < 4 →
        PortOpen s q → s.pulet q = 2 → (s.port q).waiting = [] → (s.port q).retx.length < s.txWindow q →
        Completes (.dmaTxnIssue ch) s (fun t =>
          SendsFrame s t q { s.dmaFrame c 5 k.next with
            dst := 15, hostDst := false, group := BitVec.ofNat 8 (s.fld F.DMA_MC_GROUP c),
            first := k.next == 0, data := bytes (loc + k.next) n } ∧
          (t.dma c).next = k.next + n ∧ t.fld F.DMA_STATUS_STATE c = 1 ∧ t.mem = s.mem)) ∧
      (∀ u, k.txns = [u] → u.tag = tag → 1000 * max 1 (s.fld F.PLT_TXN_TMO_US) ≤ s.elapsed u.sentAt →
        Completes (.dmaTxnTimeout ch tag) s (fun t => stopped t 0x08)) ∧
      ((∀ u ∈ k.txns, u.tag = tag → s.elapsed u.sentAt < 1000 * max 1 (s.fld F.PLT_TXN_TMO_US)) → exec (.dmaTxnTimeout ch tag) s = .next s) ∧
      (∀ m, mode = 2 → k.members = [m] → m.chip = member.val → m.failed = none → m.attached = true → m.acked < m.sent → s.opens loc = true →
        (s.repairDue m = false → exec (.mcastRepairTimeout ch member) s = .next s) ∧
        (s.repairDue m = true → m.retries < max 1 (s.fld F.PLT_MC_RETRIES) → m.sent ≤ m.acked + 8192 → k.catchUp = none →
          let size := min 8192 (len - m.acked)
          readable (loc + m.acked) size → LeavesBy s false member q →
          Completes (.mcastRepairTimeout ch member) s (fun t =>
            SendsFrame s t q { s.dmaFrame c 5 m.acked with
              dst := BitVec.ofNat 4 member.val, hostDst := false, first := false, repair := true,
              group := BitVec.ofNat 8 (s.fld F.DMA_MC_GROUP c), data := bytes (loc + m.acked) size } ∧
            (t.dma c).members = [{ m with retries := m.retries + 1, times := m.times.map (fun _ => s.time) }] ∧ t.mem = s.mem)) ∧
        (s.repairDue m = true → max 1 (s.fld F.PLT_MC_RETRIES) ≤ m.retries → Completes (.mcastRepairTimeout ch member) s (fun t => stopped t 0x08))) ∧
      (mode = 3 →
        let core := s.fld F.DMA_SPL_SRC_CORE c
        let g := s.ring core (s.fld F.DMA_SPL_SRC_RING c)
        let slot := k.line % g.slots
        let a := g.fill slot
        let planes := s.fld F.DMA_SPL_SRC_PLANES c
        let size := s.fld F.DMA_SPL_SHAPE_BYTES c
        let plane (i : Nat) : Nat := loc + slot * 256 * s.fld F.DMA_SPL_STR_SSTR c + i * 256 * s.fld F.DMA_SPL_STR_PSTR c
        let filled := (s.rawWord a - BitVec.ofNat 32 (k.line / g.slots + 1)).toNat < 2 ^ 31
        let nh := s.fld F.DMA_SPL_SHAPE_NH c + 1
        let dh := max 1 (s.fld F.DMA_SPL_SHAPE_DH c)
        s.opens loc = true → s.slotOk g slot a = true → s.storeOk (a + 4) 1 = true → s.clean a 2 → s.portFree a = true →
          (¬ filled → Completes (.spliceLineSend ch) s (fun t => t.net = s.net ∧ t.mem = s.mem ∧ t.regs = s.regs)) ∧
          (filled → s.unwatched (a + 4) 1 → (∀ i < planes, readable (plane i) size) → s.spliceEncrypted core = false → towards →
            Completes (.spliceLineSend ch) s (fun t => (t.dma c).line = k.line + 1 ∧ t.rawWord (a + 4) = s.rawWord (a + 4) + 1 ∧
              (∀ y, y < a + 4 ∨ a + 8 ≤ y → t.byteAt y = s.byteAt y) ∧
              SendsFrame s t q { s.dmaFrame c 2 (k.line % nh * 256 * ((planes * size + 255) / 256)) with
                aux := BitVec.ofNat 32 (planes * size),
                data := (List.range planes).flatMap (fun i => bytes (plane i) size) ++
                  (leBytes 5 (s.fld F.DMA_SPL_FILL_OFS c * 8 + 8 * (k.line % nh)) ++ [0, 0, 0] ++ leBytes 4 (k.line / nh + 1) ++
                    leBytes 4 (k.line / nh * dh)) }))))

/-- R371, R386, R389 and R390: what the answers to a channel's requests do: a transaction completes or stops its channel, the data read
are stored once their store takes them, a member's acknowledged offset advances or the member fails; and the answer to an ATOMIC is left for its origin. -/
def Obligations.DmaResponses : Prop :=
  ∀ (p : Fin 4) (f : Frame) (r : List Frame) (s : State), Quiet s → (s.port p).delivered = f :: r →
    let c := f.chan.toNat % 32
    let k := s.dma c
    let len := s.fld F.DMA_LEN_BYTES c
    let loc := s.fld F.DMA_LOCAL_LO_ADDR c * 4 + s.fld F.DMA_LOCAL_HI_ADDR c * 2 ^ 32
    let active (mode : Nat) : Prop := s.fld F.DMA_STATUS_STATE c = 1 ∧ s.fld F.DMA_CTRL_MODE c = mode ∧ k.stopping = none
    let ended (t : State) (st code : Nat) : Prop := t.fld F.DMA_STATUS_STATE c = st ∧ t.fld F.DMA_STATUS_CODE c = code ∧
      t.bit F.DMA_CTRL_GO c = false ∧ (t.fld F.PLT_DMA_EVT_END).testBit c = true ∧ t.dma c = {}
    let progress (t : State) (u : Txn) : Prop :=
      let done_ := contiguous 0 (k.complete.length + 1) (k.complete ++ [(u.offset, u.length)]) % 2 ^ 32
      t.fld F.DMA_DONE_BYTES c = done_ ∧ (done_ = len → ended t 2 0) ∧
        (done_ ≠ len → t.fld F.DMA_STATUS_STATE c = 1 ∧ (t.dma c).txns = k.txns.filter (fun w => w.tag != u.tag))
    (f.mtype = 0x81 → ∀ u, active 0 → k.txns.find? (fun w => w.tag == f.tag) = some u →
      (f.status = 0 → Completes (.writeResponse p) s (fun t => progress t u ∧ t.mem = s.mem)) ∧
      (f.status ≠ 0 → k.txns = [u] → Completes (.writeResponse p) s (fun t => ended t 3 f.status.toNat ∧ t.mem = s.mem))) ∧
    (f.mtype = 0x83 → ∀ u, active 1 → k.txns.find? (fun w => w.tag == f.tag) = some u →
      (f.status = 0 → f.data.length = u.length → s.servedNet (loc + u.offset) u.length = true → s.open_ (loc + u.offset) u.length →
        (s.opens (loc + u.offset) = false → exec (.readResponse p) s = .next s) ∧
        (s.opens (loc + u.offset) = true → s.portFree (loc + u.offset) = true → Completes (.readResponse p) s (fun t => progress t u ∧ Stored s t (loc + u.offset) f.data))) ∧
      (f.status ≠ 0 → k.txns = [u] → Completes (.readResponse p) s (fun t => ended t 3 f.status.toNat ∧ t.mem = s.mem))) ∧
    (f.mtype = 0x84 → ∀ w g : Word, f.data = bytesOfWords [w, g] → Completes (.atomicResponse p) s (fun t => t.portWords = [w] ∧
      (t.portFlag = true ↔ g ≠ 0) ∧ t.portPoison = f.poison ∧ t.regs = s.regs ∧ t.mem = s.mem ∧ t.cores = s.cores)) ∧
    (f.mtype = 0x85 → ∀ m, active 2 → k.members = [m] → m.chip = f.src.toNat → m.failed = none →
      let pos := f.offset.toNat - s.dmaRofs c
      (f.status = 0 → m.acked < pos → pos < len → m.attached = true → Completes (.mcastAck p) s (fun t =>
        let left := (max m.sent pos - pos + 8191) / 8192
        (t.dma c).members =
          [{ m with acked := pos, sent := max m.sent pos, retries := 0, times := m.times.drop (m.times.length - left) }] ∧
        t.fld F.DMA_STATUS_STATE c = 1 ∧ t.fld F.DMA_DONE_BYTES c = pos ∧ t.mem = s.mem)) ∧
      (f.status = 0 → m.acked < pos → pos = len → Completes (.mcastAck p) s (fun t => ended t 2 0 ∧ t.mem = s.mem)) ∧
      (f.status ≠ 0 → Completes (.mcastAck p) s (fun t => ended t 3 f.status.toNat ∧ t.mem = s.mem))) ∧
    (∀ i ∈ [(Instr.writeResponse p, (0x81 : BitVec 8)), (.readResponse p, 0x83), (.atomicResponse p, 0x84), (.mcastAck p, 0x85),
      (.write p, 1), (.splice p, 2), (.read p, 3), (.atomic p, 4), (.mcast p, 5), (.mgmtRd p, 6), (.mgmtWr p, 7), (.flip p, 9)],
      f.mtype ≠ i.2 → exec i.1 s = .next s)

/-! ### Network time -/

/-- R395, R396, R398 and R400 to R403: V(C) in 80 bits; a step moves network time by its value, a change of RATE keeps it continuous
and takes effect at its C, a read of TIME_NOW_LO captures the rest of one reading, and holdover runs at −I, after SYNC_TMO intervals
without a valid Sync. -/
def Obligations.NetworkTime : Prop :=
  ∀ (v : Word) (s : State), Quiet s →
    let lim : Int := 549755813
    let small (x : Int) : Prop := -lim ≤ x ∧ x ≤ lim
    let integ := (s.rd .TIME_INTEG).toInt
    let rateIn (x : State) : Int := (x.rd .TIME_RATE).toInt
    let on := s.slavePort.isSome = true ∧ s.bit F.TIME_CTRL_SERVO_EN = true ∧ s.syncLost = true
    let since : Int := ((s.time : Int) - s.tu.cA) % 2 ^ 64
    s.ntV = s.tu.vA + BitVec.ofInt 80 (since * 65536 + since * rateIn s / 2 ^ 24) ∧ s.nt = s.ntV.toNat / 65536 ∧
    Completes (.timeStep v) s (fun t => t.ntV = s.ntV + BitVec.ofInt 80 ((v ++ s.rd .TIME_STEP_LO : BitVec 64).toInt * 65536) ∧
      Counted F.TIME_STEPS_COUNT 0 s t ∧ t.bit F.TIME_EVT_STEP = true ∧ t.bit F.TIME_STATUS_SYNCED = false ∧ rateIn t = rateIn s ∧
      t.mem = s.mem ∧ t.cores = s.cores) ∧
    Completes .timeNowRead s (fun t => t.readData = BitVec.ofNat 32 s.nt ∧ t.rd .TIME_NOW_HI = BitVec.ofNat 32 (s.nt / 2 ^ 32) ∧
      (t.rd .TIME_FRAC).toNat = s.ntV.toNat % 65536 ∧ RegsBut s t [(.TIME_NOW_HI, 0, 0), (.TIME_FRAC, 0, 0)] ∧ t.tu = s.tu ∧ t.mem = s.mem) ∧
    (∀ r c, s.tu.pendingRate = some (r, c) → s.reached c = false → exec .rateTakeEffect s = .next s) ∧
    (∀ r c, s.tu.pendingRate = some (r, c) → s.reached c = true → small r → Completes .rateTakeEffect s (fun t => t.ntV = s.ntV ∧ rateIn t = r ∧
      t.tu.pendingRate = none ∧ RegsBut s t [(.TIME_RATE, 0, 0)] ∧ t.mem = s.mem)) ∧
    (s.tu.pendingRate = none → exec .rateTakeEffect s = .next s) ∧
    (on → s.bit F.TIME_STATUS_HOLDOVER = false → small integ → Completes .holdoverEntry s (fun t => t.bit F.TIME_STATUS_HOLDOVER = true ∧
      t.bit F.TIME_EVT_HOLDOVER = true ∧ t.bit F.TIME_STATUS_SYNCED = false ∧ rateIn t = -integ ∧ t.ntV = s.ntV ∧ t.mem = s.mem)) ∧
    (¬ on ∨ s.bit F.TIME_STATUS_HOLDOVER = true → exec .holdoverEntry s = .next s)

/-- R397, R399 to R402, R404 to R407: a Sync of the SLAVE port gives the offset, is relayed on a MASTER port with its correction, and drives
the servo; a two-step one waits one sync interval for its Follow_Up; a grandmaster sends Syncs of its own, one in each sync interval;
and a peer-delay exchange gives the link's delay.  A message of a domain other than 0 does nothing.  The rate offset of a relayed Sync and the formula of the delay are the model's readings (log entries 176 and 177). -/
def Obligations.TimeMessages : Prop :=
  (∀ (p : Fin 4) (m : PtpMsg) (s : State), PortOpen s p → m.domain ≠ 0 →
    ∀ i ∈ [Instr.ptpSync p m, .ptpFollowUp p m, .pdelayReq p m, .pdelayResp p m, .pdelayRespFollowUp p m], Completes i s (fun t =>
      t.port p = s.port p ∧ t.tu = s.tu ∧ t.net.outbox = s.net.outbox ∧ t.mem = s.mem ∧ t.cores = s.cores)) ∧
  (∀ (p : Fin 4) (m : PtpMsg) (s : State), PortOpen s p → m.domain = 0 →
    let k := (s.port p).ptp
    let slave := s.bit F.TIME_CTRL_GPTP_EN = true ∧ s.ptpRole p = 2
    let alone := ∀ q < 4, s.ptpRole q ≠ 1
    let delay := (s.rd .PTP_DELAY p).toNat
    let tr := s.rxTime p
    let offset (m : PtpMsg) (tr : Int) : Int := roundDiv ((tr - (m.stamp : Int)) * 65536 - m.correction.toInt - (delay : Int) * 256) 65536
    let θ := offset m tr
    let measured (t : State) (θ : Int) : Prop := (t.rd .TIME_OFFSET).toInt = held32 θ ∧ t.bit F.TIME_STATUS_HOLDOVER = false ∧
      t.tu.lastSync = s.time ∧ t.mem = s.mem ∧ t.cores = s.cores
    let received (t : State) : Prop := t.fld F.PTP_SYNCS_RX p = (s.fld F.PTP_SYNCS_RX p + 1) % 65536
    let untouched (t : State) : Prop := t.tu = s.tu ∧ t.net.outbox = s.net.outbox ∧ t.mem = s.mem ∧ t.cores = s.cores
    let serves := s.bit F.TIME_CTRL_SERVO_EN = true ∧ s.grandmaster = false
    let lim : Int := (min 500 (s.fld F.TIME_LIMIT_RATE_PPM) : Nat) * 2 ^ 40 / 1000000
    let large := s.bit F.TIME_CTRL_STEP_EN = true ∧ 1000 * max 1 (s.fld F.TIME_LIMIT_STEP_US) < θ.natAbs
    let integ := (s.rd .TIME_INTEG).toInt
    let g : Rat := (θ * 2 ^ 40 : Int) / (s.syncInterval : Rat)
    let i' := clampInt (-lim) lim (integ + ratRound ((s.fld F.TIME_SERVO_KI : Nat) * g / 256))
    let departs := lowBits 64 (s.txTime p)
    let arrived := lowBits 64 tr
    let blank (n : BitVec 16) (ns : Nat) : PtpMsg :=
      { seqId := n, seconds := BitVec.ofNat 48 (ns / 1000000000), nanos := BitVec.ofNat 32 (ns % 1000000000), correction := 0, rateOffset := 0,
        twoStep := false }
    let sends (t : State) (l : List WireFrame) : Prop := Sends s t p l ∧ t.tu = s.tu ∧ t.mem = s.mem
    (slave → m.twoStep = false →
      (alone → ¬ serves → Completes (.ptpSync p m) s (fun t => measured t θ ∧ received t ∧ t.net.outbox = s.net.outbox)) ∧
      (alone → serves → large → Completes (.ptpSync p m) s (fun t => measured t θ ∧ t.ntV = s.ntV + BitVec.ofInt 80 (-θ * 65536) ∧
        t.rd .TIME_INTEG = s.rd .TIME_INTEG ∧ t.rd .TIME_RATE = s.rd .TIME_RATE ∧ t.bit F.TIME_STATUS_SYNCED = false)) ∧
      (alone → serves → ¬ large → Completes (.ptpSync p m) s (fun t => measured t θ ∧ t.ntV = s.ntV ∧
        (t.rd .TIME_INTEG).toInt = i' ∧
        t.tu.pendingRate = some (clampInt (-lim) lim (-(ratRound ((s.fld F.TIME_SERVO_KP : Nat) * g / 256) + i')), (s.time + 1000) % 2 ^ 64) ∧
        (2 * s.fld F.TIME_SERVO_LOCK_NS < θ.natAbs → t.bit F.TIME_STATUS_SYNCED = false) ∧
        (θ.natAbs ≤ s.fld F.TIME_SERVO_LOCK_NS → max 1 (s.fld F.TIME_SERVO_LOCK_CNT) ≤ s.tu.lockRun + 1 →
          t.bit F.TIME_STATUS_SYNCED = true))) ∧
      (∀ q < 4, (∀ o < 4, s.ptpRole o = 1 ↔ o = q) → PortOpen s q → Completes (.ptpSync p m) s (fun t =>
        ∃ m' : PtpMsg, t.net.outbox = s.net.outbox ++ [s.sentFrom q (.ptpSync m')] ∧ m'.seqId = m.seqId ∧ m'.stamp = m.stamp ∧
          m'.twoStep = false ∧ m'.correction = m.correction + BitVec.ofInt 64 ((s.txTime q - tr) * 65536 + (delay : Int) * 256)))) ∧
    (slave → m.twoStep = true → Completes (.ptpSync p m) s (fun t => (t.port p).ptp.sync = some (m, tr, s.time) ∧ received t ∧ untouched t)) ∧
    (¬ slave → ∀ i ∈ [Instr.ptpSync p m, .ptpFollowUp p m], Completes i s (fun t => (t.port p).ptp = k ∧ untouched t)) ∧
    (∀ m0 u c, slave → k.sync = some (m0, u, c) → m0.seqId = m.seqId → s.elapsed c ≤ s.syncInterval → alone → ¬ serves →
      Completes (.ptpFollowUp p m) s (fun t => measured t (offset m u) ∧ (t.port p).ptp.sync = none)) ∧
    (∀ m0 u c, slave → k.sync = some (m0, u, c) → m0.seqId ≠ m.seqId ∨ s.syncInterval < s.elapsed c → Completes (.ptpFollowUp p m) s (fun t => (t.port p).ptp = k ∧ untouched t)) ∧
    (∀ m0 u c, k.sync = some (m0, u, c) → s.elapsed c ≤ s.syncInterval → exec (.followUpTimeout p) s = .next s) ∧
    (∀ m0 u c, k.sync = some (m0, u, c) → s.syncInterval < s.elapsed c → Completes (.followUpTimeout p) s (fun t => (t.port p).ptp = { k with sync := none } ∧ untouched t ∧ t.regs = s.regs)) ∧
    (k.sync = none → exec (.followUpTimeout p) s = .next s) ∧
    (s.grandmaster = true → s.bit F.TIME_CTRL_GPTP_EN = true → s.ptpRole p = 1 → s.lapsed k.syncAt s.syncInterval = true →
      Completes (.gmSyncSend p) s (fun t =>
      sends t [.ptpSync { blank k.syncSeq departs with correction := BitVec.ofNat 64 (s.ntV.toNat % 65536) }] ∧ (t.port p).ptp.syncAt = some s.time ∧
      t.fld F.PTP_SYNCS_TX p = (s.fld F.PTP_SYNCS_TX p + 1) % 65536 ∧ (t.port p).ptp.syncSeq = k.syncSeq + 1)) ∧
    (s.grandmaster = false ∨ s.ptpRole p ≠ 1 ∨ s.lapsed k.syncAt s.syncInterval = false → exec (.gmSyncSend p) s = .next s) ∧
    (s.ptpOn p = true →
      (s.lapsed k.reqAt s.pdelayInterval = false → exec (.pdelayReqSend p) s = .next s) ∧
      (s.lapsed k.reqAt s.pdelayInterval = true → Completes (.pdelayReqSend p) s (fun t => sends t [.pdelayReq (blank (k.reqSeq + 1) 0)] ∧
        (t.port p).ptp.reqSeq = k.reqSeq + 1 ∧ (t.port p).ptp.reqAt = some s.time ∧ (t.port p).ptp.reqSent = some (s.txTime p) ∧
        (t.port p).ptp.resp = none)) ∧
      Completes (.pdelayReq p m) s (fun t => sends t [.pdelayResp { blank m.seqId arrived with twoStep := true },
        .pdelayRespFollowUp (blank m.seqId departs)]) ∧
      (m.seqId = k.reqSeq → k.reqSent.isSome = true → Completes (.pdelayResp p m) s (fun t => (t.port p).ptp = { k with resp := some (m, tr) } ∧
        untouched t)) ∧
      (m.seqId ≠ k.reqSeq → ∀ i ∈ [Instr.pdelayResp p m, .pdelayRespFollowUp p m], Completes i s (fun t => (t.port p).ptp = k ∧ untouched t)) ∧
      (∀ t1 r t4, k.reqSent = some t1 → k.resp = some (r, t4) → m.seqId = k.reqSeq → k.lastPair = none → r.correction = 0 → m.correction = 0 →
        Completes (.pdelayRespFollowUp p m) s (fun t => ((t.rd .PTP_DELAY p).toNat : Int) =
          clampInt 0 (2 ^ 32 - 1) (128 * ((t4 - t1) - ((m.stamp : Int) - r.stamp)) + 16 * s.sfld F.PTP_ASYM_ASYM p) ∧ t.rd .PTP_NRR p = 0 ∧
          (t.port p).ptp.reqSent = none ∧ (t.port p).ptp.resp = none ∧ untouched t))) ∧
    (s.ptpOn p = false → exec (.pdelayReqSend p) s = .next s ∧
      ∀ i ∈ [Instr.pdelayReq p m, .pdelayResp p m, .pdelayRespFollowUp p m], Completes i s (fun t => (t.port p).ptp = k ∧ untouched t)))

/-! ### Knots and binds -/

/-- A fault is logged, alone (R477, R478): nothing where the log is full. -/
def Sys2Proof.Machine.Logs (s t : State) (f : FaultRec) : Prop :=
  s.log.length < 64 → t.log = s.log ++ [{ fault := f, seq := s.logSeq, time := s.nt }]

/-- R270, R271 and R276 to R280: eviction and removal of an unbound knot; an import that its first step allows, and its end, before or
after its burst of step 5 (R465); a load that copies the body of a LIBRARY image whose pages match its table; and a verification of a
region in place, both at a store that takes accesses and at whose port their turn has come. -/
def Obligations.KnotLibrary : Prop :=
  ∀ (v : Word) (knot : Fin 10240) (s : State), Quiet s →
    let same (t : State) : Prop := t.mem = s.mem ∧ t.cores = s.cores
    let w := min (s.fld F.KNT_SEL_KNOT) 10239
    let dest := v.toNat % 8
    let fault (code k : Nat) : FaultRec := { code := code, cls := 5, unit := 0, d0 := BitVec.ofNat 32 k }
    let others (t : State) (k : Nat) : Prop := ∀ j i, i < 16 → j ≠ k ∨ i ≠ 0 → t.kword j i = s.kword j i
    let legal := s.kbound w = 0 ∧ ((dest = 1 ∧ s.kstate w = 3) ∨ (dest = 0 ∧ (s.kstate w = 1 ∨ s.kstate w = 3)))
    (∀ i ∈ [Instr.knotEvict v, .knotRemove v],
      (legal → Completes i s (fun t => t.kstate w = dest ∧ t.kbound w = 0 ∧ others t w ∧ t.regs = s.regs ∧ t.verified = s.verified ∧ same t)) ∧
      (¬ legal → Completes i s (fun t => t.kn = s.kn ∧ Logs s t (fault 0x0C w) ∧ same t))) ∧
    (let r : ImportReq := { knot := s.fld F.IMP_KNOT_KNOT, ofs := s.fld F.IMP_OFS_OFS, len := s.fld F.IMP_LEN_BYTES, noBody := v.getLsbD 0 }
     v.getLsbD 31 = true → s.bit F.IMP_STATUS_BUSY = false →
      (s.importAllowed r = true → Completes (.libraryImport v) s (fun t => t.kn.imp = some r ∧ t.bit F.IMP_STATUS_BUSY = true ∧
        t.kn.table = s.kn.table ∧ same t)) ∧
      (s.importAllowed r = false → Completes (.libraryImport v) s (fun t => t.fld F.IMP_STATUS_CODE = 0x0C ∧ t.bit F.IMP_STATUS_DONE = true ∧
        t.bit F.IMP_STATUS_BUSY = false ∧ Logs s t (fault 0x0C r.knot) ∧ t.kn.table = s.kn.table ∧ same t)) ∧
      (s.kbound r.knot ≠ 0 ∨ r.ofs < 320 ∨ s.fld F.LIB_SIZE_MB * 1048576 < 4096 * r.ofs + r.len → s.importAllowed r = false)) ∧
    (v.getLsbD 31 = false ∨ s.bit F.IMP_STATUS_BUSY = true → exec (.libraryImport v) s = .next (s.plainWrite .IMP_CTRL (v &&& 1))) ∧
    (s.kn.imp = none → exec .importEnd s = .next s) ∧
    (∀ r h payload, s.kn.imp = some r → s.hyperBytes (s.libBase + 4096 * r.ofs) headerLen = some h →
      s.hyperBytes (s.libBase + 4096 * r.ofs + headerLen) (payloadLen h) = some payload →
      let header := payload.take 4096
      let sound := headerLen + payloadLen h ≤ r.len ∧ s.containerOk true h payload = true
      let formed := knotHeaderOk r.knot header = true
      let whole := imageDigestsOk r.noBody payload = true
      let failed (t : State) (code : Nat) : Prop := t.fld F.IMP_STATUS_CODE = code ∧ t.bit F.IMP_STATUS_DONE = true ∧
        t.bit F.IMP_STATUS_BUSY = false ∧ Logs s t (fault code r.knot) ∧ t.kn.imp = none ∧ t.kn.table = s.kn.table ∧ same t
      let half := match s.currentHalf r.knot with
        | some (i, _) => 1 - i
        | none => 0
      let at_ := s.halfAt r.knot half
      let gen := nextGen (s.kstate r.knot) (s.kword r.knot 1)
      r.burst = none →
      (¬ sound → Completes .importEnd s (fun t => failed t 0x0E)) ∧
      (sound → ¬ formed → Completes .importEnd s (fun t => failed t 0x04)) ∧
      (sound → formed → ¬ whole → Completes .importEnd s (fun t => failed t 0x0A)) ∧
      (sound → formed → whole → Completes .importEnd s (fun t => t.kbound r.knot = s.kbound r.knot ∧
        t.kstate r.knot = (if s.kstate r.knot = 2 ∨ s.kstate r.knot = 4 then s.kstate r.knot else 1) ∧
        (t.kword r.knot 1).toNat = gen % 2 ^ 32 ∧ t.kbase r.knot = leField header 8 4 ∧ t.kpages r.knot = leField header 0xC 4 ∧
        (∀ i < 4, t.byteAt (at_ + i) = (leBytes 4 gen).getD i 0) ∧ (∀ i < 4, t.byteAt (at_ + 4 + i) = (leBytes 4 r.ofs).getD i 0) ∧
        (∀ i < 4, t.byteAt (at_ + 8 + i) = (leBytes 4 r.len).getD i 0) ∧ (∀ y, y < at_ ∨ at_ + 64 ≤ y → t.byteAt y = s.byteAt y) ∧
        (∀ j i, i < 16 → j ≠ r.knot → t.kword j i = s.kword j i) ∧ t.fld F.IMP_STATUS_CODE = 0 ∧ t.bit F.IMP_STATUS_DONE = true ∧
        t.kn.imp = none ∧ t.cores = s.cores))) ∧
    (∀ r half entry, s.kn.imp = some r → r.burst = some (half, entry) → Completes .importEnd s (fun t =>
      (∀ w, 1 ≤ w → w < 16 → t.kword r.knot w = BitVec.ofNat 32 (entry.getD w 0)) ∧ t.kbound r.knot = s.kbound r.knot ∧
      t.kstate r.knot = (if s.kstate r.knot = 2 ∨ s.kstate r.knot = 4 then s.kstate r.knot else 1) ∧
      (∀ j i, i < 16 → j ≠ r.knot → t.kword j i = s.kword j i) ∧ t.fld F.IMP_STATUS_CODE = 0 ∧ t.bit F.IMP_STATUS_DONE = true ∧
      t.kn.imp = none ∧ same t)) ∧
    (let k := knot.val
     let base := s.kbase k
     (s.kstate k ≠ 2 ∨ s.opens base = false → exec (.loadComplete knot) s = .next s) ∧
     (s.kstate k = 2 → s.opens base = true → s.usableHalf k = none → s.waitingSlots k = [] → Completes (.loadComplete knot) s (fun t => t.kstate k = 1 ∧ others t k ∧ same t)) ∧
     (∀ h table body, s.kstate k = 2 → s.opens base = true → s.portFree base = true → s.usableHalf k = some (h, table, body) → base % 4096 = 0 →
       (∀ p < s.kpages k, s.pageServed (base + 4096 * p) = true ∧ ∃ data, s.hyperBytes (body + 4096 * p) 4096 = some data ∧
         s.hyperBytes (table + 32 * p) 32 = some (sha256Bytes data)) →
       (∀ i < 1024 * s.kpages k, s.unwatched (base + 4 * i) 1) → Completes (.loadComplete knot) s (fun t => t.kstate k = 3 ∧ others t k ∧
         (∀ i < 4096 * s.kpages k, t.byteAt (base + i) = s.byteAt (body + i)) ∧
         (∀ y, y < base ∨ base + 4096 * s.kpages k ≤ y → t.byteAt y = s.byteAt y) ∧
         (∀ p < s.kpages k, t.verified.look (base / 4096 + p) false = true) ∧ t.regs = s.regs ∧ t.cores = s.cores))) ∧
    (let u := s.plainWrite .VER_CTRL (v &&& 0x3FFF)
     let k := u.fld F.VER_CTRL_KNOT
     (v.getLsbD 31 = true → s.kn.ver = none → (s.kstate k = 1 ∨ s.kstate k = 3) → Completes (.verify v) s (fun t => t.kstate k = 4 ∧ others t k ∧
       t.kn.ver = some (k, []) ∧ t.bit F.VER_CTRL_GO = true ∧ same t)) ∧
     (v.getLsbD 31 = true → (s.kn.ver.isSome = true ∨ (s.kstate k ≠ 1 ∧ s.kstate k ≠ 3)) → Completes (.verify v) s (fun t =>
       t.fld F.VER_STATUS_CODE = 0x0C ∧ t.kn = s.kn ∧ same t)) ∧
     (v.getLsbD 31 = false → exec (.verify v) s = .next u)) ∧
    (s.kn.ver = none → exec .verifyEnd s = .next s) ∧
    (∀ k dirty, s.kn.ver = some (k, dirty) → s.opens (s.kbase k) = false → exec .verifyEnd s = .next s) ∧
    (∀ k dirty, s.kn.ver = some (k, dirty) → s.opens (s.kbase k) = true → s.waitingSlots k = [] →
      let base := s.kbase k
      let data (p : Nat) : List Byte := (List.range 4096).map (fun i => s.byteAt (base + 4096 * p + i))
      (s.usableHalf k = none → Completes .verifyEnd s (fun t => t.kstate k = 1 ∧ others t k ∧ t.kn.ver = none ∧ t.fld F.VER_STATUS_CODE = 0x0A ∧
        t.bit F.KNT_EVT_VERIFY_DONE = true ∧ t.verified = s.verified ∧ Logs s t (fault 0x0A k) ∧ same t)) ∧
      (∀ h table body, s.usableHalf k = some (h, table, body) → base % 4096 = 0 → s.portFree base = true →
        (∀ p < s.kpages k, s.pageServed (base + 4096 * p) = true ∧ s.hyperBytes (table + 32 * p) 32 = some (sha256Bytes (data p))) →
        (∀ i < 1024 * s.kpages k, s.clean (base + 4 * i) 1) → Completes .verifyEnd s (fun t => t.kstate k = 3 ∧ others t k ∧ t.kn.ver = none ∧
          t.fld F.VER_STATUS_CODE = 0 ∧ t.bit F.KNT_EVT_VERIFY_DONE = true ∧
          (∀ p < s.kpages k, base / 4096 + p ∉ dirty → t.verified.look (base / 4096 + p) false = true) ∧
          (∀ n ∈ dirty, t.verified.look n false = s.verified.look n false) ∧ same t)))

/-- R281 to R285: GO of a FREE slot checks its request and prepares it, loading a LIBRARY knot; a prepared slot's stage records are
checked; the apply of an immediate bind, of which nothing is poisoned, binds and starts its cores; CANCEL frees a slot; and UNBIND takes a skein's cores away. -/
def Obligations.Binds : Prop :=
  ∀ (v : Word) (slot : Fin 32) (s : State), Quiet s →
    let i := s.fld F.BIND_SEL_SLOT
    let k := s.slotKnot i
    let n := s.slotKnot slot
    let r := s.bindReq slot
    let failed (t : State) (i code : Nat) : Prop := t.slotState i = 3 ∧ t.fld F.BIND_STATUS_CODE i = code ∧ t.bit F.KNT_EVT_BIND_ERR = true ∧
      Logs s t { code := code, cls := 4, unit := i, d0 := BitVec.ofNat 32 (s.slotKnot i) } ∧ t.kn.table = s.kn.table ∧ t.cores = s.cores
    let preparing (t : State) : Prop := t.slotState i = 1 ∧ t.fld F.BIND_STATUS_CODE i = 0 ∧ RegsBut s t [(.BIND_STATUS, i, 0)] ∧
      t.mem = s.mem ∧ t.cores = s.cores
    (v.toNat % 8 = 1 →
      (s.slotState i ≠ 0 → exec (.bindGo v) s = .next s) ∧
      (s.slotState i = 0 → ∀ code, s.goCheck (s.bindReq i) = code →
        (code ≠ 0 → code < 256 → Completes (.bindGo v) s (fun t => failed t i code ∧ t.mem = s.mem)) ∧
        (code = 0 → s.kstate k ≠ 1 → Completes (.bindGo v) s (fun t => preparing t ∧ t.kn = s.kn)) ∧
        (code = 0 → s.kstate k = 1 → s.loadRefusal k = 0 → Completes (.bindGo v) s (fun t => preparing t ∧ t.kstate k = 2 ∧
          ∀ j ∈ s.knownKnots, j ≠ k → s.overlap j k = true → s.kstate j = 3 → t.kstate j = 1)) ∧
        (code = 0 → s.kstate k = 1 → s.loadRefusal k ≠ 0 → s.loadRefusal k < 256 → Completes (.bindGo v) s (fun t =>
          failed t i (s.loadRefusal k) ∧ t.mem = s.mem)))) ∧
    (let q := s.bindReq i
     (s.kstate q.knot = 0 ∨ s.kfld q.knot 3 20 16 + 1 ≠ q.cores.length ∨ q.stripes ≤ q.stripe ∨ q.width < s.kfld q.knot 5 8 0 ∨
        s.kfld q.knot 5 24 16 < q.width → s.goCheck q = 0x04)) ∧
    (s.slotState slot ≠ 1 ∨ s.kstate n = 2 ∨ s.kstate n = 4 ∨ s.opens (s.kbase n) = false → exec (.bindPrepared slot) s = .next s) ∧
    (s.slotState slot = 1 → s.kstate n = 3 → s.opens (s.kbase n) = true →
      (s.knotVerified n = false → Completes (.bindPrepared slot) s (fun t => failed t slot 0x0B ∧ t.mem = s.mem)) ∧
      (s.knotVerified n = true → (∀ a, s.portFree a = true) → (s.checkStages r).1 = 0 → Completes (.bindPrepared slot) s (fun t => t.slotState slot = 2 ∧
        t.fld F.BIND_STATUS_CODE slot = 0 ∧ t.kn.table = s.kn.table ∧ t.cores = s.cores)) ∧
      (s.knotVerified n = true → ∀ code, (s.checkStages r).1 = code → code ≠ 0 → code < 256 → Completes (.bindPrepared slot) s (fun t =>
        t.slotState slot = 3 ∧ t.fld F.BIND_STATUS_CODE slot = code ∧ t.bit F.KNT_EVT_BIND_ERR = true))) ∧
    (s.slotState slot ≠ 2 ∨ s.bit F.BIND_KNOT_MODE slot = true → exec (.bindApply slot) s = .next s) ∧
    (s.slotState slot = 2 → s.bit F.BIND_KNOT_MODE slot = false → r.stream = 2 →
      (s.knotVerified n = false → Completes (.bindApply slot) s (fun t => failed t slot 0x0B ∧ t.mem = s.mem)) ∧
      (s.knotVerified n = true → (s.readBind r).1 = true → Completes (.bindApply slot) s (fun t => t.slotState slot = 3 ∧
        t.fld F.BIND_STATUS_CODE slot = 0x18 ∧ t.bit F.KNT_EVT_BIND_ERR = true ∧ t.kn.table = s.kn.table)) ∧
      (s.knotVerified n = true → (s.readBind r).1 = false → (∀ c ∈ r.cores, (s.core c).state = 0) → Completes (.bindApply slot) s (fun t => t.slotState slot = 0 ∧
        t.kbound n = min 32 (s.kbound n + 1) ∧ t.kstate n = s.kstate n ∧ t.bit F.KNT_EVT_BIND_DONE = true ∧
        ∀ g < r.cores.length, let c := r.cores.getD g 0
          (t.core c).state = 2 ∧ t.bit F.CORE_BIND_VALID c = true ∧ t.fld F.CORE_BIND_KNOT c = n ∧ t.fld F.CORE_BIND_SKEIN c = r.skein ∧
          t.fld F.CORE_BIND_STAGE c = g ∧ t.fld F.CORE_BIND_STREAM c = 2))) ∧
    (v.toNat % 8 = 4 → Completes (.bindCancel v) s (fun t => t.slotState i = 0 ∧ t.fld F.BIND_STATUS_CODE i = 0 ∧
      RegsBut s t [(.BIND_STATUS, i, 0)] ∧ t.kn = s.kn ∧ t.mem = s.mem ∧ t.cores = s.cores)) ∧
    (v.toNat % 8 = 2 → s.tst.audit = none →
      let skein := s.fld F.BIND_TARGET_SKEIN i
      Completes (.bindUnbind v) s (fun t => t.mem = s.mem ∧
        (∀ c < 32, s.boundTo c skein = true → t.bit F.CORE_BIND_VALID c = false ∧ ((s.core c).state ≤ 4 → (t.core c).state = 0)) ∧
        (∀ c < 32, s.boundTo c skein = false → t.rd .CORE_BIND c = s.rd .CORE_BIND c ∧ (t.core c).state = (s.core c).state) ∧
        (∀ knot, (∃ c < 32, s.boundTo c skein = true) → (∀ c < 32, s.boundTo c skein = true → s.fld F.CORE_BIND_KNOT c = knot) →
          t.kbound knot = s.kbound knot - 1 ∧ t.kstate knot = s.kstate knot)))

/-! ### Keepers, interrupts and the sideband -/

/-- R424, R427 to R429: what START, HALT and RESET do in each state of a keeper; doorbells, watchdogs, and ticks, each at a multiple of
1,000,000 of C; and R290 to R292: the lease sweeper frees a lock that it finds expired twice for one owner. -/
def Obligations.KeepersAndTicks : Prop :=
  ∀ (k : Fin 4) (v : Word) (m : TickMeasures) (s : State), Quiet s →
    let x := s.keeper k
    let others (t : State) : Prop := t.mem = s.mem ∧ t.cores = s.cores ∧ ∀ j, j ≠ k.val → t.keeper j = s.keeper j
    let now := s.fld F.TICK_COUNT_COUNT
    let ticks := s.fld F.KEP_WDOG_TICKS k
    (x.state = 0 → Completes (.keeperStart k) s (fun t => t.keeper k = { x with state := 1, eng := {}, wdogTicks := now } ∧ t.regs = s.regs ∧ others t)) ∧
    (x.state = 2 → Completes (.keeperStart k) s (fun t =>
      t.keeper k = { x with state := 1, wdogTicks := now, eng := { x.eng with stopped := false, withdraw := false } } ∧ t.regs = s.regs ∧
      others t)) ∧
    (x.state ≠ 0 → x.state ≠ 2 → exec (.keeperStart k) s = .next s) ∧
    (x.state = 1 → Completes (.keeperHalt k) s (fun t => (t.keeper k).state = 2 ∧ (t.keeper k).eng.pc = x.eng.pc ∧ (t.keeper k).eng.s = x.eng.s ∧
      (t.keeper k).eng.a = x.eng.a ∧ (∀ op b, x.eng.wait = .irq op b → (t.keeper k).eng.wait = .none) ∧ t.regs = s.regs ∧ others t)) ∧
    (x.state ≠ 1 → exec (.keeperHalt k) s = .next s) ∧
    Completes (.keeperReset k) s (fun t => t.keeper k = { x with state := 0, eng := {} } ∧
      (∀ key, ∀ w ∈ t.stores.watches.look key [], w.e ≠ .keeper k) ∧ t.regs = s.regs ∧ others t) ∧
    Completes (.doorbell v) s (fun t => (∀ j < 4, t.rd .KEP_PEVT j =
        if v.getLsbD j then s.rd .KEP_PEVT j ||| BitVec.ofNat 32 (2 ^ (1 + v.toNat / 16 % 4)) else s.rd .KEP_PEVT j) ∧
      RegsBut s t ((List.range 4).map (fun j => (.KEP_PEVT, j, 0))) ∧ t.mem = s.mem ∧ t.keepers = s.keepers ∧ t.cores = s.cores) ∧
    Completes (.watchdogKick k v) s (fun t => t.fld F.KEP_WDOG_TICKS k = v.toNat % 256 ∧ t.keeper k = { x with wdogTicks := now } ∧
      RegsBut s t [(.KEP_WDOG, k, 0)] ∧ others t) ∧
    (ticks ≠ 0 → x.state = 1 → ticks ≤ (now + 2 ^ 32 - x.wdogTicks) % 2 ^ 32 → Completes (.keeperWatchdogExpiry k) s (fun t =>
      (∀ j < 4, j ≠ k.val → (s.keeper j).state = 1 → t.bit F.KEP_PEVT_WDOG j = true) ∧ t.rd .KEP_PEVT k = s.rd .KEP_PEVT k ∧
      t.keeper k = { x with wdogTicks := now } ∧ others t)) ∧
    (ticks = 0 ∨ x.state ≠ 1 ∨ (now + 2 ^ 32 - x.wdogTicks) % 2 ^ 32 < ticks → exec (.keeperWatchdogExpiry k) s = .next s) ∧
    (s.tickDue = false → exec (.managementTick m) s = .next s) ∧
    (s.tickDue = true → s.bit F.KNT_CTRL_SWEEP_EN = false → s.bit F.SRC_CTRL_EN 0 = true → s.running 0 = true → Completes (.managementTick m) s (fun t =>
      t.fld F.TICK_COUNT_COUNT = (now + 1) % 2 ^ 32 ∧
      (∀ j < 4, t.bit F.KEP_PEVT_TICK j = true ∧ (s.bit F.KEP_PEVT_TICK j = true → Counted F.TICK_OVERRUN_COUNT j s t) ∧
        (s.bit F.KEP_PEVT_TICK j = false → t.fld F.TICK_OVERRUN_COUNT j = s.fld F.TICK_OVERRUN_COUNT j)) ∧
      t.mem = s.mem ∧ t.cores = s.cores ∧ t.keepers = s.keepers)) ∧
    (s.tickDue = true → s.time % 1000000 = 0) ∧
    (∀ i < 256,
      let a := s.fld F.LSE_ADDR_LO_ADDR i * 8 + s.fld F.LSE_ADDR_HI_ADDR i * 2 ^ 32
      let owner := s.rawWord a
      let expiry := s.rawWord (a + 4)
      let past := (s.nt / 1000 % 2 ^ 31 + 2 ^ 31 - expiry.toNat % 2 ^ 31) % 2 ^ 31
      s.bit F.LSE_ADDR_HI_VALID i = true → storeOf a ≠ some 3 → s.storeOk a 2 = true → s.portFree a = true → s.clean a 2 → s.unwatched a 1 → owner ≠ 0 →
      expiry.getLsbD 31 = false → 1 ≤ past → past < 2 ^ 30 →
        let t := s.sweepEntry i
        (s.kn.lease.has i = false ∨ s.kn.lease.look i 0 ≠ owner → t.kn = { s.kn with lease := s.kn.lease.put i owner } ∧ t.regs = s.regs ∧
          t.mem = s.mem) ∧
        (s.kn.lease.has i = true → s.kn.lease.look i 0 = owner → t.rawWord a = 0 ∧ (∀ y, y < a ∨ a + 4 ≤ y → t.byteAt y = s.byteAt y) ∧
          t.rd .LSE_OWNER = owner ∧ t.fld F.LSE_LAST_INDEX = i ∧ Counted F.LSE_COUNT_COUNT 0 s t ∧ t.bit F.KNT_EVT_LEASE_EXPIRED = true ∧
          t.raised = [{ code := 0x1A, cls := 4, unit := 1, d0 := BitVec.ofNat 32 i, d1 := owner }]))

/-- R431 to R441: a claim takes the claimable source of highest priority into service, and a read of IRQ_WAIT does the same or is held
until a source is claimable or a tick has come; a completion ends its service; and the event channel claims for the host and sends,
within its credits, and again once EVT_RESEND has passed. -/
def Obligations.InterruptsAndEvents : Prop :=
  ∀ (t : Fin 5) (x : Fin 2) (src : Fin 256) (v : Word) (q : Nat) (s : State), Quiet s →
    let best := s.bestClaim t
    let hosts := t = 4 ∧ s.bit F.EVT_CTRL_EN = true
    let id := v.toNat % 1024
    let mine := id < 288 ∧ (id < 256 ∨ t.val < 4) ∧ s.inService (serviceKey t id) = true ∧ s.irq.inService.look (serviceKey t id) 5 = t.val
    let event (seq : Word) (e : HostEvent) (again : Bool) : Frame :=
      { blankFrame 8 0 s.chip with
        hostDst := true, tag := seq.setWidth 16,
        data := leBytes 2 e.src ++ ([BitVec.ofNat 8 e.prio, if again then 1 else 0] ++ (leBytes 4 seq.toNat ++ leBytes 8 e.time)) }
    (∀ c, best = some c → c ∈ s.claimable t ∧ ∀ d ∈ s.claimable t, d.2 ≤ c.2) ∧
    (best = none ↔ s.claimable t = []) ∧
    (∀ n < 256, ∀ p, (n, p) ∈ s.claimable t ↔ p = s.fld F.IRQ_CFG_PRIO n ∧ (s.fld F.IRQ_CFG_TARGETS n).testBit t = true ∧
      s.fld F.IRQ_THRESH_THRESH t < p ∧ s.level n = true ∧ s.inService n = false) ∧
    (¬ hosts →
      (best = none → exec (.irqClaim t) s = .next { s with readData := 1023 }) ∧
      (∀ c, best = some c → Completes (.irqClaim t) s (fun u => u.readData = BitVec.ofNat 32 c.1 ∧
        u.irq.inService.look (serviceKey t c.1) 5 = t.val ∧ u.inService (serviceKey t c.1) = true ∧
        u.fld F.IRQ_CLAIMS_COUNT t = (s.fld F.IRQ_CLAIMS_COUNT t + 1) % 2 ^ 32 ∧ RegsBut s u [(.IRQ_CLAIMS, t, 0)] ∧ u.mem = s.mem ∧
        u.cores = s.cores))) ∧
    (hosts → exec (.irqClaim t) s = .next { s with readData := 1023 }) ∧
    (hosts ∨ best ≠ none → exec (.irqWait t) s = exec (.irqClaim t) s) ∧
    (¬ hosts → best = none → Completes (.irqWait t) s (fun u => (∃ c, (t.val, c) ∈ u.irq.held) ∧
      ((∀ h ∈ s.irq.held, h.1 ≠ t.val) → (t.val, s.time) ∈ u.irq.held) ∧ u.readData = s.readData ∧ u.regs = s.regs ∧ u.mem = s.mem)) ∧
    let due (c : Nat) : Prop := hosts ∨ best ≠ none ∨ s.tickSince c = true
    (∀ h, s.heldKeeper t = none → s.irq.held.find? (·.1 == t.val) = some h →
      (due h.2 → exec (.irqWaitReturn t) s = exec (.irqClaim t) { s with irq := { s.irq with held := s.irq.held.filter (·.1 != t.val) } }) ∧
      (¬ due h.2 → exec (.irqWaitReturn t) s = .next s)) ∧
    (∀ k b, s.heldKeeper t = some (k, b) →
      let (w, u) := s.readClaim t
      (due ((s.keeper k).eng.since.getD 0) →
        exec (.irqWaitReturn t) s = goesOn { u with readData := w } (.keeper k) ((s.eng (.keeper k)).ws (b.f 49 45) w)) ∧
      (¬ due ((s.keeper k).eng.since.getD 0) → exec (.irqWaitReturn t) s = .next s)) ∧
    (s.heldKeeper t = none → (∀ h ∈ s.irq.held, h.1 ≠ t.val) → exec (.irqWaitReturn t) s = .next s) ∧
    (mine → Completes (.irqComplete t v) s (fun u => u.inService (serviceKey t id) = false ∧
      (∀ key, key ≠ serviceKey t id → u.inService key = s.inService key) ∧ u.regs = s.regs ∧ u.mem = s.mem)) ∧
    (¬ mine → Completes (.irqComplete t v) s (fun u => Counted F.IRQ_MISCOUNT_COUNT t s u ∧ RegsBut s u [(.IRQ_MISCOUNT, t, 0)] ∧
      u.irq = s.irq ∧ u.mem = s.mem)) ∧
    Completes (.rptSeqRead x) s (fun u => u.readData = s.rd .RPT_SEQ x ∧ u.irq.frameLatch.look x false = false ∧ u.level (33 + x) = false ∧
      u.regs = s.regs ∧ u.mem = s.mem) ∧
    (s.bit F.EVT_CTRL_EN = true →
      (∀ c, s.bestClaim 4 = some c → s.outstanding < max 1 (s.fld F.EVT_CTRL_CREDITS) → LeavesBy s true 0 q →
        let e : HostEvent := { src := c.1, prio := c.2, seq := s.rd .EVT_SEQ, time := s.nt, lastSent := s.time }
        Completes .eventSend s (fun u => SendsFrame s u q (event (s.rd .EVT_SEQ) e false) ∧ u.irq.events = s.irq.events ++ [e] ∧
          u.inService (serviceKey 4 c.1) = true ∧ u.rd .EVT_SEQ = s.rd .EVT_SEQ + 1 ∧
          u.fld F.EVT_SENT_COUNT = (s.fld F.EVT_SENT_COUNT + 1) % 2 ^ 32 ∧ u.mem = s.mem)) ∧
      (s.bestClaim 4 = none ∨ max 1 (s.fld F.EVT_CTRL_CREDITS) ≤ s.outstanding → exec .eventSend s = .next s) ∧
      (∀ e, s.irq.events.find? (fun e => e.src == src.val) = some e → s.elapsed e.lastSent < 1000 * max 100 (s.fld F.EVT_RESEND_US) →
        exec (.eventResend src) s = .next s) ∧
      (∀ e, s.irq.events.find? (fun e => e.src == src.val) = some e → 1000 * max 100 (s.fld F.EVT_RESEND_US) ≤ s.elapsed e.lastSent →
        LeavesBy s true 0 q → Completes (.eventResend src) s (fun u =>
        SendsFrame s u q (event e.seq e true) ∧ u.irq.inService = s.irq.inService ∧ u.rd .EVT_SEQ = s.rd .EVT_SEQ ∧
        u.fld F.EVT_RESENDS_COUNT = (s.fld F.EVT_RESENDS_COUNT + 1) % 2 ^ 32 ∧ u.mem = s.mem)) ∧
      Completes (.eventChannelDisable v) s (fun u => u.bit F.EVT_CTRL_EN = false ∧ u.irq.events = [] ∧ (∀ c ∈ u.irq.inService, c.2 ≠ 4) ∧
        (∀ c ∈ s.irq.inService, c.2 ≠ 4 → c ∈ u.irq.inService) ∧ RegsBut s u [(.EVT_CTRL, 0, 0)] ∧ u.mem = s.mem)) ∧
    (s.bit F.EVT_CTRL_EN = false → exec .eventSend s = .next s ∧ exec (.eventResend src) s = .next s) ∧
    ((∀ e ∈ s.irq.events, e.src ≠ src.val) → exec (.eventResend src) s = .next s)

/-- R442 to R444 and R458: the sideband, at the device's address, writes and reads the mailbox, and its pointer moves on; bytes that R444
refuses have no effect and are not acknowledged; a message and an acknowledgement pass by the flags; and the boot sequencer gathers a
container from messages once the stores are zeroed. -/
def Obligations.SidebandMailbox : Prop :=
  ∀ (x : BitVec 7) (p : Byte) (data : List Byte) (count : Nat) (v : Word) (s : State), Quiet s →
    let own := x = s.i2cAddress
    let full := s.bit F.MBX_STATUS_H2D_FULL
    let ready := s.bit F.MBX_STATUS_D2H_FULL
    let len := s.fld F.MBX_STATUS_H2D_LEN
    let at_ := p.toNat
    let moved (t : State) (n : Nat) : Prop := t.boot.sbPointer = (at_ + n) % 256 ∧ t.mem = s.mem ∧ t.cores = s.cores
    s.i2cAddress = BitVec.ofNat 7 (0x60 + s.chip) ∧
    (¬ own → ∀ i ∈ [Instr.i2cWrite ⟨x, p⟩ data, .i2cRead ⟨x, count⟩], Completes i s (fun t =>
      t.boot = { s.boot with sbAcks := [false] } ∧ t.portWords = s.portWords ∧ t.regs = s.regs ∧ t.mem = s.mem)) ∧
    (own → full = false → 0x40 ≤ at_ → at_ + data.length ≤ 0x80 → Completes (.i2cWrite ⟨x, p⟩ data) s (fun t => moved t data.length ∧
      t.boot.sbAcks = List.replicate (data.length + 2) true ∧
      (∀ i < data.length, byteOf (t.rd .MBX_H2D ((at_ + i - 0x40) / 4)) ((at_ + i) % 4) = data.getD i 0) ∧
      (∀ y < 64, y + 0x40 < at_ ∨ at_ + data.length ≤ y + 0x40 →
        byteOf (t.rd .MBX_H2D (y / 4)) (y % 4) = byteOf (s.rd .MBX_H2D (y / 4)) (y % 4)))) ∧
    (∀ b, own → full = false → p = 1 → data = [b] → Completes (.i2cWrite ⟨x, p⟩ data) s (fun t => moved t 1 ∧
      t.fld F.MBX_STATUS_H2D_LEN = min 64 b.toNat ∧ RegsBut s t [(.MBX_STATUS, 0, 0)])) ∧
    (∀ b, own → full = false → p = 3 → data = [b] → b.getLsbD 0 = true → b.getLsbD 1 = false → len ≠ 0 → s.boot.phase ≠ 2 →
      Completes (.i2cWrite ⟨x, p⟩ data) s (fun t => moved t 1 ∧ t.bit F.MBX_STATUS_H2D_FULL = true ∧ t.bit F.MBX_EVT_H2D_ARRIVED = true)) ∧
    (own → full = true → at_ + data.length ≤ 256 → (∀ i < data.length, at_ + i ≠ 3) → Completes (.i2cWrite ⟨x, p⟩ data) s (fun t =>
      moved t data.length ∧ t.regs = s.regs ∧ t.boot.sbAcks = [true, true] ++ (List.range data.length).map (fun i =>
        decide (at_ + i ≠ 1 ∧ (at_ + i < 0x40 ∨ 0x80 ≤ at_ + i))))) ∧
    (own → Completes (.i2cRead ⟨x, count⟩) s (fun t => t.boot.sbAcks = [true] ∧ t.portWords.length = count ∧ t.boot.sbPointer = (s.boot.sbPointer + count) % 256 ∧ t.regs = s.regs ∧
      t.mem = s.mem ∧ ∀ i < count, let y := (s.boot.sbPointer + i) % 256
        (0x80 ≤ y → y < 0xC0 → t.portWords.getD i 0 = (byteOf (s.rd .MBX_D2H ((y - 0x80) / 4)) (y % 4)).setWidth 32) ∧
        (y = 0 → (t.portWords.getD i 0).toNat = (if full then 1 else 0) + (if ready then 2 else 0) + (if s.bit F.MBX_STATUS_READY then 4 else 0)) ∧
        (4 ≤ y → y < 8 → t.portWords.getD i 0 = (byteOf (s.rd .SYS_ID) (y - 4)).setWidth 32))) ∧
    (full = false → len ≠ 0 → s.boot.phase ≠ 2 → Completes .mailboxSend s (fun t => t.bit F.MBX_STATUS_H2D_FULL = true ∧
      t.bit F.MBX_EVT_H2D_ARRIVED = true ∧ RegsBut s t [(.MBX_STATUS, 0, 0), (.MBX_EVT, 0, 0)] ∧ t.mem = s.mem)) ∧
    (full = false → len ≠ 0 → s.boot.phase = 2 → s.bit F.STO_STATUS_INIT_DONE = false → Completes .mailboxSend s (fun t =>
      t.bit F.MBX_STATUS_H2D_FULL = true ∧ t.boot = s.boot ∧ t.mem = s.mem)) ∧
    (full = false → len ≠ 0 → s.boot.phase = 2 → s.bit F.STO_STATUS_INIT_DONE = true → s.boot.sbBytes.length + s.h2dBytes.length < 4096 → Completes .mailboxSend s (fun t =>
      t.bit F.MBX_STATUS_H2D_FULL = false ∧ t.boot.sbBytes = s.boot.sbBytes ++ s.h2dBytes ∧ t.boot.phase = 2 ∧ t.mem = s.mem)) ∧
    (full = true ∨ len = 0 → exec .mailboxSend s = .next s) ∧
    (ready = true → Completes .mailboxAck s (fun t => t.bit F.MBX_STATUS_D2H_FULL = false ∧ t.bit F.MBX_EVT_D2H_TAKEN = true ∧
      RegsBut s t [(.MBX_STATUS, 0, 0), (.MBX_EVT, 0, 0)] ∧ t.mem = s.mem)) ∧
    (ready = false → exec .mailboxAck s = .next s) ∧
    (v.getLsbD 1 = false → Completes (.h2dDone v) s (fun t => t.bit F.MBX_STATUS_H2D_FULL = false ∧ RegsBut s t [(.MBX_STATUS, 0, 0)] ∧
      t.mem = s.mem)) ∧
    (v.getLsbD 0 = false → ready = false → Completes (.d2hSend v) s (fun t => t.bit F.MBX_STATUS_D2H_FULL = true ∧
      RegsBut s t [(.MBX_STATUS, 0, 0)] ∧ t.mem = s.mem)) ∧
    (v.getLsbD 0 = false → ready = true → exec (.d2hSend v) s = .next (s.setBit F.MBX_EVT_REJECT))

/-! ### Boot, flash, OTP and attestation -/

/-- R457, R461 to R463, R467, R468 and R476: a boot from a slot that verifies and loads; a boot that finds none; an erase or program of
the flash, refused where it touches the running slot; and reads, programming and counters of the OTP.  A request made while its unit is
BUSY sets the register's fields alone.  That an erase leaves ones and a
program clears bits is the family's (log entry 10).

R470 to R473, of stores at whose ports the turn has come: the identity key is shown; a report of the device is made of its request and
its state, and signed, and one of a session carries its ephemeral key; encryption counts its IV, and decryption refuses an IV of the
device's own form and a failed tag; the end of an operation writes its output; and a measurement extends the register. -/
def Obligations.BootFlashOtpAndAttestation : Prop :=
  (∀ (k : Fin 4) (v : Word) (vppLow : Bool) (s : State), Quiet s →
    let same (t : State) : Prop := t.mem = s.mem ∧ t.cores = s.cores
    let slotBase (i : Nat) : Nat := flashBase + i * 0x400000
    let addr := s.fld F.XSPI_ADDR_ADDR
    let buffer := bytesOfWords ((List.range 16).flatMap (fun i => (List.range 4).map (fun j => s.rd .XSPI_BUF (4 * i + j))))
    let touches (a n : Nat) : Prop := ∃ i, s.boot.slot = some i ∧ a < (i + 1) * 0x400000 ∧ i * 0x400000 < a + n
    let written (t : State) (a n : Nat) : Prop := (∀ y, y < flashBase + a ∨ flashBase + a + n ≤ y → t.byteAt y = s.byteAt y) ∧
      t.boot.flash = none ∧ t.bit F.XSPI_STATUS_BUSY = false ∧ t.bit F.BOOT_EVT_XSPI_DONE = true ∧ t.cores = s.cores
    let w := s.fld F.OTP_ADDR_WORD
    let bits := s.rd .OTP_DATA
    let otp (x : State) (i : Nat) : Word := x.boot.otp.look i 0
    let started (t : State) (j : OtpJob) : Prop := t.boot = { s.boot with otpJob := some j } ∧ t.bit F.OTP_STATUS_BUSY = true ∧ same t
    let refused (t : State) : Prop := t.boot = s.boot ∧ t.bit F.OTP_STATUS_ERR = true ∧ t.bit F.OTP_STATUS_BUSY = false ∧ same t
    let finished (t : State) : Prop := t.boot.otpJob = none ∧ t.bit F.OTP_STATUS_BUSY = false ∧ t.bit F.BOOT_EVT_OTP_DONE = true ∧ same t
    let n := v.toNat % 1024
    let knot := v.getLsbD 12
    (∀ i < 2, headerFieldsOk false (s.bytesAt (slotBase i) 4096) = false → i ∉ s.candidates) ∧
    (s.flashPhase = true → ∀ h i t', s.flashBoot = (some (h, i), t') → i < 2 → Completes .bootComplete s (fun t => t.boot.phase = 0 ∧
      t.boot.slot = some i ∧ t.fld F.BOOT_STATUS_SRC = 0 ∧ t.fld F.BOOT_STATUS_SLOT = i ∧ t.rd .BOOT_GEN = BitVec.ofNat 32 (containerGen h) ∧
      t.boot.measurement = 0 ∧ ((t'.keeper 0).state = 0 → (t.keeper 0).state = 1 ∧ (t.keeper 0).eng.pc = 0)) ∧
      exec .noSlotBooted s = .next s) ∧
    (s.flashPhase = true → ∀ t', s.flashBoot = (none, t') → exec .bootComplete s = .next s ∧ Completes .noSlotBooted s (fun t =>
      t'.bit F.MBX_STATUS_H2D_FULL = false → t.boot.phase = if t'.sidebandBoot true then 2 else 3)) ∧
    (s.flashPhase = false → exec .bootComplete s = .next s ∧ exec .noSlotBooted s = .next s) ∧
    (∀ x ∈ [(Instr.xspiSectorErase k v, 0x10000, FlashJob.erase (addr / 0x10000 * 0x10000)),
        (.xspiPageProgram k v, 0x100, .program (addr / 0x100 * 0x100) buffer)],
      let a := addr / x.2.1 * x.2.1
      (s.bit F.XSPI_STATUS_BUSY = true → Completes x.1 s (fun t => t.fld F.XSPI_CMD_OP = (if x.2.1 = 0x100 then 2 else 1) ∧ t.boot = s.boot ∧
        RegsBut s t [(.XSPI_CMD, 0, 0)] ∧ same t)) ∧
      (s.bit F.XSPI_STATUS_BUSY = false → touches a x.2.1 → Completes x.1 s (fun t => t.boot = s.boot ∧ t.bit F.XSPI_STATUS_ERR = true ∧
        t.bit F.XSPI_STATUS_BUSY = false ∧ Logs s t { code := 0x05, cls := 1, unit := k, d0 := BitVec.ofNat 32 a } ∧ same t)) ∧
      (s.bit F.XSPI_STATUS_BUSY = false → ¬ touches a x.2.1 → Completes x.1 s (fun t => t.boot = { s.boot with flash := some x.2.2 } ∧
        t.bit F.XSPI_STATUS_BUSY = true ∧ same t))) ∧
    (∀ a, s.boot.flash = some (.erase a) → Completes .xspiDone s (fun t => written t a 0x10000 ∧
      ∀ i < 0x10000, a + i < 0x10000000 → t.byteAt (flashBase + a + i) = 0xFF)) ∧
    (∀ a d, s.boot.flash = some (.program a d) → Completes .xspiDone s (fun t => written t a d.length ∧
      ∀ i < d.length, a + i < 0x10000000 → t.byteAt (flashBase + a + i) = s.byteAt (flashBase + a + i) &&& d.getD i 0)) ∧
    (s.boot.flash = none → exec .xspiDone s = .next s) ∧
    (s.bit F.OTP_STATUS_BUSY = true →
      (∀ x ∈ [(Instr.otpRead v, 1), (.otpProgram v vppLow, 2)], Completes x.1 s (fun t => t.fld F.OTP_CMD_OP = x.2 ∧ t.boot = s.boot ∧
        RegsBut s t [(.OTP_CMD, 0, 0)] ∧ same t)) ∧
      Completes (.svnAdvance v vppLow) s (fun t => t.fld F.SVN_ADV_VALUE = n ∧ t.bit F.SVN_ADV_KIND = knot ∧ t.boot = s.boot ∧
        RegsBut s t [(.SVN_ADV, 0, 0)] ∧ same t)) ∧
    (s.bit F.OTP_STATUS_BUSY = false →
      Completes (.otpRead v) s (fun t => started t (.read w)) ∧
      (vppLow = true ∨ s.otpRefuses w bits = true → Completes (.otpProgram v vppLow) s refused) ∧
      (vppLow = false → s.otpRefuses w bits = false → Completes (.otpProgram v vppLow) s (fun t => started t (.program w bits))) ∧
      (vppLow = true ∨ (knot = false ∧ s.fld F.BOOT_SVN_SVN < n) → Completes (.svnAdvance v vppLow) s refused) ∧
      (vppLow = false → (knot = true ∨ n ≤ s.fld F.BOOT_SVN_SVN) → n < s.svnCounter knot → Completes (.svnAdvance v vppLow) s (fun t =>
        t.boot = s.boot ∧ t.rd .OTP_STATUS = s.rd .OTP_STATUS ∧ same t)) ∧
      (vppLow = false → (knot = true ∨ n ≤ s.fld F.BOOT_SVN_SVN) → s.svnCounter knot ≤ n → Completes (.svnAdvance v vppLow) s (fun t =>
        started t (.advance knot n)))) ∧
    (∀ i, s.boot.otpJob = some (.read i) → Completes .otpDone s (fun t => finished t ∧ t.boot.otp = s.boot.otp ∧
      t.rd .OTP_DATA = if 0x300 ≤ 4 * i ∧ 4 * i < 0x330 then 0 else otp s i &&& otpMask i)) ∧
    (∀ i b, s.boot.otpJob = some (.program i b) → Completes .otpDone s (fun t => finished t ∧ otp t i = otp s i ||| (b &&& otpMask i) ∧
      ∀ j, j ≠ i → otp t j = otp s j)) ∧
    (∀ kn m, s.boot.otpJob = some (.advance kn m) → Completes .otpDone s (fun t => finished t ∧
      let first := if kn then 160 else 144
      (∀ i < 16, ∀ b < 32, (otp t (first + i)).getLsbD b = ((otp s (first + i)).getLsbD b || decide (32 * i + b < m))) ∧
      ∀ j, j < first ∨ first + 16 ≤ j → otp t j = otp s j)) ∧
    (s.boot.otpJob = none → exec .otpDone s = .next s)) ∧
  (∀ (v : Word) (s : State), Quiet s →
    let same (t : State) : Prop := t.mem = s.mem ∧ t.cores = s.cores
    let src := s.fld F.ATT_SRC_ADDR * 8
    let dst := s.fld F.ATT_DST_ADDR * 8
    let n := v.toNat / 65536 % 8192
    let idle := s.bit F.ATT_STATUS_BUSY = false
    let bytes (a n : Nat) : List Byte := (List.range n).map (fun i => s.byteAt (a + i))
    let seed := s.otpBytes 0x300 48
    let readable (a n : Nat) : Prop := s.attRange a n = true ∧ s.portFree a = true ∧ ∀ i < (a % 4 + n + 3) / 4, s.clean (a / 4 * 4 + 4 * i) 1
    let begins (i : Instr) (P : AttJob → Prop) : Prop := Completes i s (fun t => (∃ j, t.boot.att = some j ∧ P j) ∧ t.bit F.ATT_STATUS_BUSY = true ∧
      t.boot.session = s.boot.session ∧ same t)
    let report (j : AttJob) (session : Bool) : Prop := j.code = 0 ∧ j.dst = dst ∧ j.out.length = 448 ∧ sub j.out 0 4 = leBytes 4 0x52545441 ∧
      sub j.out 4 2 = leBytes 2 1 ∧ sub j.out 6 2 = leBytes 2 ((if session then 1 else 0) + (if s.otpConfig 0 then 2 else 0)) ∧
      sub j.out 0x30 8 = leBytes 8 s.nt ∧ sub j.out 0x40 32 = bytes src 32 ∧ sub j.out 0x90 48 = beBytes 48 s.boot.measurement.toNat ∧
      sub j.out 0x120 0x40 = List.replicate 0x40 0 ∧ sub j.out 0x160 96 = ecdsaSign (identityScalar seed) (j.out.take 0x160) ∧
      (session = false → j.key = none ∧ sub j.out 0xC0 96 = List.replicate 96 0) ∧
      (session = true → ∃ d, 1 ≤ d ∧ d < n384 ∧ sub j.out 0xC0 96 = publicKey d ∧
        j.key = some (sessionKey d (bytes (src + 32) 96) (bytes src 32)))
    let legal := 16 ≤ n ∧ n ≤ 4096 ∧ n % 16 = 0
    let sum := s.fld F.MEAS_SRC_ADDR * 8
    (s.boot.phase = 0 → s.bit F.BOOT_STATUS_IDPUB_VALID = false → Completes .identityKeyReady s (fun t =>
      t.bit F.BOOT_STATUS_IDPUB_VALID = true ∧
      (∀ i < 24, t.rd .BOOT_IDPUB i = BitVec.ofNat 32 (leField (publicKey (identityScalar seed)) (4 * i) 4)) ∧ t.boot = s.boot ∧ same t)) ∧
    (s.boot.phase ≠ 0 ∨ s.bit F.BOOT_STATUS_IDPUB_VALID = true → exec .identityKeyReady s = .next s) ∧
    (s.bit F.ATT_STATUS_BUSY = true → ∀ x ∈ [(Instr.attReport v, 0), (.attReportSession v, 1), (.gcmEncrypt v, 2), (.gcmDecrypt v, 3)],
      Completes x.1 s (fun t => t.fld F.ATT_CTRL_OP = x.2 ∧ t.fld F.ATT_CTRL_LEN = n ∧ t.boot = s.boot ∧ RegsBut s t [(.ATT_CTRL, 0, 0)] ∧ same t)) ∧
    (idle → readable src 32 → s.attRange dst 448 = true → begins (.attReport v) (fun j => report j false)) ∧
    (idle → readable src 128 → s.attRange dst 448 = true → begins (.attReportSession v) (fun j => report j true)) ∧
    (idle → s.attRange src 32 = false → begins (.attReport v) (fun j => j = { code := 0x05, addr := src })) ∧
    (idle → s.attRange src 32 = true → s.attRange dst 448 = false → begins (.attReport v) (fun j => j = { code := 0x05, addr := dst })) ∧
    (idle → s.boot.session = none → ∀ i ∈ [Instr.gcmEncrypt v, .gcmDecrypt v], begins i (fun j => j = { code := 0x04 })) ∧
    (idle → s.boot.session.isSome = true → ¬ legal → ∀ i ∈ [Instr.gcmEncrypt v, .gcmDecrypt v], begins i (fun j => j = { code := 0x04 })) ∧
    (∀ key, idle → s.boot.session = some key → legal → readable src n → s.attRange dst (n + 28) = true →
      Completes (.gcmEncrypt v) s (fun t => t.boot.gcmCount = s.boot.gcmCount + 1 ∧ t.bit F.ATT_STATUS_BUSY = true ∧ same t ∧
        ∃ j, t.boot.att = some j ∧ j.code = 0 ∧ j.dst = dst ∧ j.out.length = n + 28 ∧
          let iv := [0, 0, 0, 0] ++ beBytes 8 (s.boot.gcmCount + 1)
          let (cipher, tag) := gcmEncrypt key iv (bytes src n)
          j.out = iv ++ fitBytes n cipher ++ fitBytes 16 tag)) ∧
    (∀ key, idle → s.boot.session = some key → legal → readable src (n + 28) → s.attRange dst n = true →
      let d := bytes src (n + 28)
      ((d.getD 0 0).getLsbD 7 = false → begins (.gcmDecrypt v) (fun j => j = { code := 0x0E })) ∧
      ((d.getD 0 0).getLsbD 7 = true → gcmDecrypt key (d.take 12) (sub d 12 n) (d.drop (12 + n)) = none →
        begins (.gcmDecrypt v) (fun j => j = { code := 0x0E })) ∧
      (∀ plain, (d.getD 0 0).getLsbD 7 = true → gcmDecrypt key (d.take 12) (sub d 12 n) (d.drop (12 + n)) = some plain →
        plain.length = n → begins (.gcmDecrypt v) (fun j => j = { code := 0, dst := dst, out := plain }))) ∧
    (∀ j, s.boot.att = some j →
      let ended (t : State) : Prop := t.boot.att = none ∧ t.bit F.ATT_STATUS_BUSY = false ∧ t.fld F.ATT_STATUS_CODE = j.code % 256 ∧
        t.bit F.BOOT_EVT_ATT_DONE = true ∧ t.cores = s.cores
      (j.code = 0 → s.servedBytes j.dst j.out.length = true → s.portFree j.dst = true → s.open_ j.dst j.out.length → Completes .attDone s (fun t => ended t ∧
        Stored s t j.dst j.out ∧ (∀ key, j.key = some key → t.boot.session = some key ∧ t.boot.gcmCount = 0 ∧ t.bit F.ATT_STATUS_SESSION = true) ∧
        (j.key = none → t.boot.session = s.boot.session ∧ t.boot.gcmCount = s.boot.gcmCount))) ∧
      (j.code ≠ 0 → Completes .attDone s (fun t => ended t ∧ t.mem = s.mem ∧
        Logs s t { code := j.code, cls := 12, unit := 0, d0 := BitVec.ofNat 32 j.addr }))) ∧
    (s.boot.att = none → exec .attDone s = .next s) ∧
    (s.servedNet sum 48 = true → s.portFree sum = true → (∀ i < (sum % 4 + 51) / 4, s.clean (sum / 4 * 4 + 4 * i) 1) → Completes (.measurementExtend v) s (fun t =>
      t.boot.measurement = sha384 (beBytes 48 s.boot.measurement.toNat ++ bytes sum 48) ∧ t.bit F.BOOT_EVT_MEAS_DONE = true ∧ same t)) ∧
    (s.servedNet sum 48 = false → exec (.measurementExtend v) s = .next s))

/-! ### Self-test, registers by address, HyperRAM and resets -/

/-- R479 and R483 to R487: the fault log's port; a request for an audit, forced or not; the run of an audit on its HALTED core and
its end, passed or failed; and an audit given up, after which other cores' clocks of a wait may stand later (R111).  That the program leaves the core as it was is the model's (log entry 14).

R488 and R489: the slices, one in each blanking interval when its instant has come, in their rotation and with their results; and the injections, armed, refused, and held
to their end. -/
def Obligations.AuditsSlicesAndInjection : Prop :=
  (∀ (v : Word) (sig : BitVec 64) (rate : Nat) (s : State), Quiet s →
    let go := v ||| 0x80000000
    let c := v.toNat % 32
    let ends (t : State) (c : Nat) : Prop := t.tst.audit = none ∧ t.bit F.TST_STATUS_AUDIT_BUSY = false ∧
      ∀ d, d ≠ c → ∃ stall since, t.core d = { s.core d with fetch := { (s.core d).fetch with stall := stall, since := since } }
    let area := 1472 * 256
    exec (.faultPop v) s = .next { s with log := s.log.drop 1 } ∧
    (s.tst.audit.isSome = true ∨ s.tst.request.isSome = true → exec (.auditRequest go) s = .next (s.setBit F.TST_EVT_REJECT)) ∧
    (s.tst.audit = none → s.tst.request = none →
      (v.getLsbD 8 = false → Completes (.auditRequest go) s (fun t => t.tst.request = some c ∧ t.tst.audit = none ∧
        t.cores = s.cores ∧ t.mem = s.mem)) ∧
      (v.getLsbD 8 = true → Completes (.auditRequest go) s (fun t =>
        (∃ a, t.tst.audit = some a ∧ a.core = c ∧ a.forced = true ∧ a.running = false ∧ a.since = s.time) ∧ t.tst.request = none ∧
        t.bit F.TST_STATUS_AUDIT_BUSY = true ∧ t.fld F.TST_STATUS_AUDIT_CORE = c ∧ (s.streamOf c < 2 → s.streamOf c ∈ t.tst.forcedStreams) ∧
        ((s.core c).state ≠ 2 → t.cores = s.cores) ∧
        ((s.core c).state = 2 → (s.core c).fetch.wait = .none → (s.core c).exec.wait = .none → (t.core c).state = 3) ∧
        t.mem = s.mem ∧ ∀ d, d ≠ c → t.core d = s.core d))) ∧
    (∀ a, s.tst.audit = some a → a.running = false → (s.core a.core).state = 3 → s.stores.late = [] → Completes .auditRun s (fun t =>
      t.tst.audit = some { a with running := true, saved := s.savedRegs a.core } ∧ (t.fld F.CORE_EN_EN).testBit a.core = false ∧
      t.cores = s.cores ∧ (s.saveOk = false → t.mem = s.mem) ∧
      ∀ y, y < s.saveBase ∨ s.saveBase + area ≤ y → t.byteAt y = s.byteAt y)) ∧
    (∀ a, s.tst.audit = some a → a.running = true ∨ (s.core a.core).state ≠ 3 → exec .auditRun s = .next s) ∧
    (s.tst.audit = none → exec .auditRun s = .next s ∧ exec (.auditComplete sig rate) s = .next s ∧ exec .auditHaltTimeout s = .next s) ∧
    (∀ a, s.tst.audit = some a → a.running = false → exec (.auditComplete sig rate) s = .next s) ∧
    (∀ a, s.tst.audit = some a → a.running = true → a.core < 32 → (s.core a.core).state = 3 → s.saveOk = true →
      (∀ i < 1472 * 64, s.clean (s.saveBase + 4 * i) 1) →
      (sig = Config.auditSignature → 1200 ≤ rate → s.vLow ≤ s.railNow → Completes (.auditComplete sig rate) s (fun t => ends t a.core ∧
        t.tst.last = a.core ∧ (t.core a.core).state = 2 ∧ (t.core a.core).acc = (s.core a.core).acc ∧
        (t.core a.core).pocket = (s.core a.core).pocket ∧ (t.fld F.CORE_EN_EN).testBit a.core = true ∧
        t.bit F.TST_EVT_AUDIT_PASS = true ∧ t.bit F.TST_AUDIT_LAST_PASS = true ∧ t.fld F.TST_AUDIT_LAST_CORE = a.core ∧
        Counted F.TST_AUDIT_CNT_COUNT 0 s t ∧ t.rd .CHAIN_TAG a.core = a.saved.getD 48 0 ∧
        (∀ r < 16, t.rd .RING_LO a.core r = a.saved.getD (3 * r) 0 ∧ t.rd .RING_HI a.core r = a.saved.getD (3 * r + 1) 0 ∧
          t.rd .RING_STRIDE a.core r = a.saved.getD (3 * r + 2) 0) ∧ t.mem = s.mem)) ∧
      (sig ≠ Config.auditSignature ∨ rate < 1200 ∨ s.railNow < s.vLow → Completes (.auditComplete sig rate) s (fun t => ends t a.core ∧
        t.tst.last = a.core ∧ (t.core a.core).state = 5 ∧ (t.core a.core).queues = [] ∧ (t.fld F.CORE_EN_EN).testBit a.core = false ∧
        t.bit F.TST_EVT_AUDIT_FAIL = true ∧ t.bit F.TST_AUDIT_LAST_PASS = false ∧
        Logs s t { code := 0x0A, cls := 11, unit := a.core, d0 := 1, d1 := sig.extractLsb' 0 32 } ∧ t.mem = s.mem))) ∧
    (∀ a, s.tst.audit = some a → a.running = true ∨ a.forced = true ∨ (s.core a.core).state = 3 ∨ s.elapsed a.since < 20000 →
      exec .auditHaltTimeout s = .next s) ∧
    (∀ a, s.tst.audit = some a → a.running = false → a.forced = false → (s.core a.core).state ≠ 3 → 20000 ≤ s.elapsed a.since →
      Completes .auditHaltTimeout s (fun t => ends t a.core ∧ t.bit F.TST_EVT_DEFERRED = true ∧ Counted F.TST_DEFER_CNT_COUNT 0 s t ∧
        (a.asked = true → t.tst.request = some a.core) ∧ (a.asked = false → t.tst.request = s.tst.request) ∧
        (a.core ∉ s.tst.deferred → Logs s t { code := 0x16, cls := 11, unit := a.core, d0 := 3 }) ∧ t.mem = s.mem ∧
        ((s.core a.core).state = 2 → (s.core a.core).haltReq = true → (s.core a.core).fetch.atHalt = false →
          (s.core a.core).exec.atHalt = false → (t.core a.core).state = 2 ∧ (t.core a.core).haltReq = false ∧
            (t.core a.core).fetch.stopped = false ∧ (t.core a.core).exec.stopped = false)))) ∧
  (∀ (v : Word) (passed : Bool) (s : State), Quiet s →
    let go := v ||| 0x80000000
    let same (t : State) : Prop := t.mem = s.mem ∧ t.cores = s.cores
    let idle := s.bit F.TST_CTRL_SLICE_EN = true ∧ s.bit F.TST_STATUS_SLICE_BUSY = false ∧ s.sliceNow = true
    let begun := { s.tst with sliceDue := false }
    let on (k : Nat) : Prop := (s.fld F.TST_SLICE_MASK).testBit k = true
    let turn (d : Nat) : Nat := (s.tst.sliceNext + d) % 3
    let kind := s.fld F.TST_STATUS_SLICE_KIND
    let bit0 := min 39 (s.fld F.TST_INJ_PARAM_BIT0)
    let bit1 := min 39 (s.fld F.TST_INJ_PARAM_BIT1)
    let refused := v.toNat % 4 = 1 ∧ bit0 = bit1
    (¬ idle → exec .sliceStart s = .next s) ∧
    (idle → (∀ k < 3, ¬ on k) → exec .sliceStart s = .next { s with tst := begun }) ∧
    (∀ d < 3, idle → (∀ e < d, ¬ on (turn e)) → on (turn d) →
      (s.sliceFits = true → Completes .sliceStart s (fun t => t.bit F.TST_STATUS_SLICE_BUSY = true ∧ t.fld F.TST_STATUS_SLICE_KIND = turn d ∧
        t.tst = { begun with sliceNext := (turn d + 1) % 3 } ∧ RegsBut s t [(.TST_STATUS, 0, 0)] ∧ same t)) ∧
      (s.sliceFits = false → Completes .sliceStart s (fun t => Counted F.TST_SKIP_CNT_COUNT 0 s t ∧ t.tst = begun ∧
        RegsBut s t [(.TST_SKIP_CNT, 0, 0)] ∧ same t))) ∧
    (s.running 0 = false → s.sliceFits = true) ∧
    (s.bit F.TST_STATUS_SLICE_BUSY = false → exec (.sliceEnd passed) s = .next s) ∧
    (s.bit F.TST_STATUS_SLICE_BUSY = true → Completes (.sliceEnd passed) s (fun t => t.bit F.TST_STATUS_SLICE_BUSY = false ∧
      (passed = true → t.log = s.log ∧ RegsBut s t [(.TST_STATUS, 0, 0)]) ∧
      (passed = false → t.bit F.TST_EVT_SLICE_FAIL = true ∧
        Logs s t { code := 0x0A, cls := 11, unit := 0x80 + kind, d0 := BitVec.ofNat 32 kind }) ∧ same t)) ∧
    (s.bit F.TST_CTRL_INJ_EN = false → Completes (.injectionArm go) s (fun t => t.tst = s.tst ∧
      t.fld F.TST_INJ_CTRL_KIND = v.toNat % 4 ∧ RegsBut s t [(.TST_INJ_CTRL, 0, 0)] ∧ same t)) ∧
    (s.bit F.TST_CTRL_INJ_EN = true → refused → exec (.injectionArm go) s = .next (s.setBit F.TST_EVT_REJECT)) ∧
    (s.bit F.TST_CTRL_INJ_EN = true → ¬ refused → Completes (.injectionArm go) s (fun t =>
      t.tst = { s.tst with
                injection := some { kind := v.toNat % 4, bit0 := bit0, bit1 := bit1, core := s.fld F.TST_INJ_PARAM_CORE
                                    addr := s.fld F.TST_INJ_ADDR_LO_ADDR * 4 + s.fld F.TST_INJ_ADDR_HI_ADDR * 2 ^ 32
                                    until_ := (s.time + 1000 * max 1 (s.fld F.TST_INJ_DUR_US)) % 2 ^ 64 } } ∧
      RegsBut s t [(.TST_INJ_CTRL, 0, 0)] ∧ same t)) ∧
    (∀ j, s.tst.injection = some j → s.reached j.until_ = false → exec .injectionHoldEnd s = .next s) ∧
    (∀ j, s.tst.injection = some j → j.kind = 3 → s.reached j.until_ = true → Completes .injectionHoldEnd s (fun t => t.tst = { s.tst with injection := none } ∧
      Counted F.TST_INJ_CNT_COUNT 0 s t ∧ RegsBut s t [(.TST_INJ_CNT, 0, 0)] ∧ same t)) ∧
    ((∀ j, s.tst.injection = some j → j.kind ≠ 3) → exec .injectionHoldEnd s = .next s))

/-- R4, R5, R447 and R505: a register write by address, where the register is one of its fields' types alone, where the tables name
none, and where it is refused; and the enabling and configuration of HyperRAM. -/
def Obligations.RegisterWritesAndHyperRam : Prop :=
  ∀ (k : Fin 4) (addr : Addr) (n : Nat) (v : Word) (failed : BitVec 16) (s : State), Quiet s →
    let a := addr.toNat
    let plain : List RegId := [.SYS_SCRATCH, .BOOT_NEXT, .XSPI_ADDR, .OTP_ADDR, .OTP_DATA, .TST_CTRL, .TST_EVT, .TST_SAVE, .TST_INJ_PARAM,
      .KNT_EVT, .STO_EVT, .IRQ_CFG, .BELAY_EVT]
    let fault : FaultRec := { code := 0x05, cls := 1, unit := k, d0 := BitVec.ofNat 32 a, d1 := BitVec.ofNat 32 (a / 2 ^ 32)
                              d2 := BitVec.ofNat 32 (s.keeper k).eng.pc }
    let same (t : State) : Prop := t.mem = s.mem ∧ t.cores = s.cores
    let en := v.getLsbD 0
    (∀ r i j, ctrlBase ≤ a → regServed (a - ctrlBase) = true → regAt (a - ctrlBase) = some (r, i, j) → r ∈ plain →
      Completes (.registerWrite k addr 4 v) s (fun t => OnlyRegs s t ∧
        (∀ r' i' j', regKey r' i' j' ≠ regKey r i j → t.rd r' i' j' = s.rd r' i' j') ∧
        ∀ b < 32, (t.rd r i j).getLsbD b = if r.row.rw.testBit b then v.getLsbD b
          else ((s.rd r i j).getLsbD b && !(r.row.w1c.testBit b && v.getLsbD b)))) ∧
    (ctrlBase ≤ a → regServed (a - ctrlBase) = true → regAt (a - ctrlBase) = none → exec (.registerWrite k addr 4 v) s = .next s) ∧
    (a < ctrlBase ∨ n ≠ 4 ∨ regServed (a - ctrlBase) = false → Completes (.registerWrite k addr n v) s (fun t => Logs s t fault ∧
      ((s.keeper k).state = 1 → (t.keeper k).state = 3) ∧ ((s.keeper k).state ≠ 1 → t.keepers = s.keepers) ∧ same t)) ∧
    Completes (.hyperramInit v) s (fun t => t.bit F.HYP_CTRL_EN = en ∧ same t ∧ RegsBut s t [(.HYP_CTRL, 0, 0), (.HYP_STATUS, 0, 0)] ∧
      (en = false → t.bit F.HYP_STATUS_READY = false) ∧ (en = true → s.hyperFitted = false → t.bit F.HYP_STATUS_READY = true) ∧
      (en = true → v.getLsbD 1 = true → t.bit F.HYP_STATUS_INIT_BUSY = true) ∧
      (en = false ∨ v.getLsbD 1 = false → t.bit F.HYP_STATUS_INIT_BUSY = s.bit F.HYP_STATUS_INIT_BUSY)) ∧
    (s.bit F.HYP_STATUS_INIT_BUSY = false → exec (.hyperramInitDone failed) s = .next s) ∧
    (s.bit F.HYP_STATUS_INIT_BUSY = true → Completes (.hyperramInitDone failed) s (fun t => t.bit F.HYP_STATUS_INIT_BUSY = false ∧ same t ∧
      RegsBut s t [(.HYP_STATUS, 0, 0), (.HYP_CHERR, 0, 0)] ∧
      (failed = 0 → s.bit F.HYP_CTRL_EN = true → t.bit F.HYP_STATUS_READY = true ∧ t.rd .HYP_CHERR = s.rd .HYP_CHERR) ∧
      (failed ≠ 0 → t.bit F.HYP_STATUS_INIT_ERR = true ∧ t.bit F.HYP_STATUS_READY = s.bit F.HYP_STATUS_READY ∧
        t.fld F.HYP_CHERR_CH = s.fld F.HYP_CHERR_CH ||| failed.toNat)))

/-- R88, R94, R270, R454, R455, R469 and R499: what a power-on reset, a warm reset by its ball, by software or over JTAG, and the loss of
the supply leave; a device with SECURE set takes no reset over JTAG.  That flash and OTP outlive the supply is the model's reading (log entry 29). -/
def Obligations.Resets : Prop :=
  ∀ (straps : BitVec 7) (v : Word) (s : State), Quiet s →
    let flash (y : Nat) : Prop := flashBase ≤ y ∧ y < flashBase + 0x10000000
    let calm := s.boot.flash = none ∧ s.boot.otpJob = none
    let key := v.getLsbD 0 = true ∧ v.toNat / 256 % 256 = 0xA5
    let warm (t : State) (cause : Nat) : Prop := t.pending = s.pending ∧ t.time = s.time ∧ t.mem = s.mem ∧ t.poison = s.poison ∧
      t.flips = s.flips ∧ t.boot.otp = s.boot.otp ∧ t.verified = [] ∧ t.keepers = [] ∧ t.net = {} ∧ t.log = [] ∧
      (∀ c < 32, (t.core c).state = 0 ∧ (t.core c).queues = [] ∧ (t.core c).streams = [] ∧ (t.core c).tempReading = (s.core c).tempReading) ∧
      (∀ i < 4, t.rd .SYS_SCRATCH i = s.rd .SYS_SCRATCH i) ∧ (∀ i < 5, t.rd .STO_BAND i = s.rd .STO_BAND i) ∧
      t.rd .BOOT_NEXT = s.rd .BOOT_NEXT ∧ t.rd .SYS_CAUSE = s.rd .SYS_CAUSE ||| BitVec.ofNat 32 (2 ^ cause) ∧ Counted F.SYS_WARMS_COUNT 0 s t ∧
      t.bit F.STO_STATUS_INIT_DONE = s.bit F.STO_STATUS_INIT_DONE ∧
      (∀ n < 10240, t.kstate n = (if s.kstate n = 2 then 1 else if s.kstate n = 4 then 3 else s.kstate n) ∧ t.kbound n = 0) ∧
      t.fab.rail = s.fab.rail ∧ (t.boot.phase = 1 ∨ t.boot.phase = 2) ∧ t.boot.session = none ∧ t.boot.measurement = 0
    (calm → Completes (.powerOnReset straps) s (fun t => t.pending = s.pending ∧ t.time = 0 ∧ t.boot.otp = s.boot.otp ∧
      t.rd .SYS_STRAPS = straps.setWidth 32 ∧ t.fld F.PLT_STATUS_CHIP = straps.toNat % 16 ∧
      (∀ y, ¬ flash y → t.byteAt y = unlisted y) ∧ (∀ y, flash y → t.byteAt y = s.byteAt y) ∧ t.poison = [] ∧ t.flips = [] ∧
      t.verified = [] ∧ t.keepers = [] ∧ t.net = {} ∧ t.kn = {} ∧ t.stores = {} ∧ t.log = [] ∧ t.rd .SYS_CAUSE = 1 ∧ t.rd .SYS_WARMS = 0 ∧
      (∀ c < 32, (t.core c).state = 0 ∧ (t.core c).queues = [] ∧ (t.core c).pocket = [] ∧ (t.core c).pocketGen = none) ∧
      (t.boot.phase = 1 ∨ t.boot.phase = 2))) ∧
    (calm → s.stores.bandMoves = [] →
      Completes .warmReset s (fun t => warm t 1) ∧ (key → Completes (.softwareWarmReset v) s (fun t => warm t 2)) ∧
      (s.otpConfig 0 = false → Completes .jtagReset s (fun t => warm t 3))) ∧
    (s.otpConfig 0 = true → exec .jtagReset s = .next s) ∧
    (¬ key → exec (.softwareWarmReset v) s = .next s) ∧
    Completes .supplyFault s (fun t => t.pending = s.pending ∧ t.boot.otp = s.boot.otp ∧ t.raised = [] ∧
      ∀ y, flash y → t.byteAt y = s.byteAt y)

/-! ### The machine as a whole -/

/-- R8, R454, R88, R424 and R478: right after reset every register holds its reset value (where the spec
gives none, the model's: log entries 1 to 8) and nothing is bound, running or waiting; the
stores read zero, the memory is in its canonical form, and no fault is logged. -/
def Obligations.ResetState : Prop :=
  (∀ r i j, State.reset.rd r i j = regReset r i j) ∧ State.reset.pending = [] ∧ State.reset.memoryOk ∧ Quiet State.reset ∧
  (∀ st < 5, ∀ n < storeSize st, State.reset.byteAt (storeBase st + n) = 0) ∧ (∀ a, State.reset.poison.look a false = false) ∧
  (∀ c, (State.reset.core c).state = 0) ∧ (∀ k, (State.reset.keeper k).state = 0) ∧ State.reset.log = [] ∧
  State.reset.rd .SYS_CAUSE = 1 ∧ State.reset.rd .CORE_EN = 0xFFFFFFFF

/-- An invariant of every step, whatever its command: a memory in its canonical form keeps it, and no fault that was raised is left
waiting for the log (R477). -/
def Obligations.MemoryFormKept : Prop :=
  ∀ s t : State, s.memoryOk → step s = .next t → t.memoryOk ∧ (Quiet s ∨ s.pending ≠ [] → Quiet t)
end

