-- ==== Sys2Proof/Laws/Sparse.lean ====
section
/-! SUPPORT. The laws of sparse maps: a look after a write, and the rising order of the keys. -/

namespace Sys2Proof.Sparse

variable {α : Type}

@[simp] theorem look_nil (k : Nat) (d : α) : look ([] : Sparse α) k d = d := rfl

@[simp] theorem look_put_same (m : Sparse α) (k : Nat) (v d : α) : look (put m k v) k d = v := by
  induction m with
  | nil => simp [put, look]
  | cons c r ih =>
    simp only [put]
    split
    · rename_i h
      have : ¬ c.1 = k := by omega
      simp [look, this, ih]
    · split <;> simp [look]

theorem look_put_other (m : Sparse α) (k j : Nat) (v d : α) (h : j ≠ k) : look (put m k v) j d = look m j d := by
  induction m with
  | nil => simp [put, look, Ne.symm h]
  | cons c r ih =>
    simp only [put]
    split
    · simp [look, ih]
    · split
      · rename_i h2
        simp [look, h2, Ne.symm h]
      · simp [look, Ne.symm h]

@[simp] theorem look_del_same (m : Sparse α) (k : Nat) (d : α) : look (del m k) k d = d := by
  induction m with
  | nil => rfl
  | cons c r ih =>
    by_cases h : c.1 = k
    · simpa [del, h] using ih
    · simpa [del, h, look] using ih

theorem look_del_other (m : Sparse α) (k j : Nat) (d : α) (h : j ≠ k) : look (del m k) j d = look m j d := by
  induction m with
  | nil => rfl
  | cons c r ih =>
    by_cases hk : c.1 = k
    · have : ¬ c.1 = j := by omega
      simp only [look, this, if_false]
      simpa [del, hk] using ih
    · have hf : del (c :: r) k = c :: del r k := List.filter_cons_of_pos (by simpa using hk)
      rw [hf]
      simp only [look, ih]

@[simp] theorem look_set_same [DecidableEq α] (m : Sparse α) (k : Nat) (d v : α) : look (set m k d v) k d = v := by
  unfold set
  split
  · rename_i h; simp [h]
  · simp

theorem look_set_other [DecidableEq α] (m : Sparse α) (k j : Nat) (d v e : α) (h : j ≠ k) :
    look (set m k d v) j e = look m j e := by
  unfold set
  split
  · exact look_del_other m k j e h
  · exact look_put_other m k j v e h

theorem mem_put (m : Sparse α) (k : Nat) (v : α) (c : Nat × α) (h : c ∈ put m k v) : c = (k, v) ∨ c ∈ m := by
  induction m with
  | nil => simp [put] at h; exact .inl h
  | cons a r ih =>
    simp only [put] at h
    split at h
    · rcases List.mem_cons.1 h with h | h
      · exact .inr (by simp [h])
      · rcases ih h with h | h
        · exact .inl h
        · exact .inr (by simp [h])
    · split at h
      · rcases List.mem_cons.1 h with h | h
        · exact .inl h
        · exact .inr (by simp [h])
      · rcases List.mem_cons.1 h with h | h
        · exact .inl h
        · exact .inr h

theorem sorted_put (m : Sparse α) (k : Nat) (v : α) (h : m.Sorted) : (put m k v).Sorted := by
  induction m with
  | nil => simp [put, Sorted]
  | cons a r ih =>
    rcases List.pairwise_cons.1 h with ⟨h1, h2⟩
    simp only [put]
    split
    · rename_i hlt
      refine List.pairwise_cons.2 ⟨fun c hc => ?_, ih h2⟩
      rcases mem_put r k v c hc with rfl | hc
      · exact hlt
      · exact h1 c hc
    · split
      · rename_i heq
        exact List.pairwise_cons.2 ⟨fun c hc => by have := h1 c hc; simp only at *; omega, h2⟩
      · rename_i hn hne
        refine List.pairwise_cons.2 ⟨fun c hc => ?_, h⟩
        rcases List.mem_cons.1 hc with rfl | hc
        · simp only at *; omega
        · have := h1 c hc; simp only at *; omega

theorem sorted_del (m : Sparse α) (k : Nat) (h : m.Sorted) : (del m k).Sorted :=
  List.Pairwise.filter _ h

theorem sorted_set [DecidableEq α] (m : Sparse α) (k : Nat) (d v : α) (h : m.Sorted) : (set m k d v).Sorted := by
  unfold set
  split
  · exact sorted_del m k h
  · exact sorted_put m k v h

/-- What a canonical write leaves listed: nothing that reads as an unlisted key does, where the map held nothing such. -/
theorem canonical_set [DecidableEq α] (m : Sparse α) (k : Nat) (v : α) (d : Nat → α)
    (h : ∀ c ∈ m, c.2 ≠ d c.1) : ∀ c ∈ set m k (d k) v, c.2 ≠ d c.1 := by
  intro c hc
  unfold set at hc
  split at hc
  · exact h c (List.mem_filter.1 hc).1
  · rename_i hv
    rcases mem_put m k v c hc with rfl | hc
    · exact hv
    · exact h c hc

end Sys2Proof.Sparse
end

