-- ==== Sys2Proof/Laws/State.lean ====
section
/-! SUPPORT. Reading a field after an update: one lemma per field and update, what a register, a core, a keeper or an engine
reads after a write, and what the end of a step does. -/

namespace Sys2Proof.Machine

variable (s : State)

/-! #### wr -/

@[simp] theorem State.wr_pending (r : RegId) (v : Word) (i j : Nat) : (s.wr r v i j).pending = s.pending := rfl
@[simp] theorem State.wr_time (r : RegId) (v : Word) (i j : Nat) : (s.wr r v i j).time = s.time := rfl
@[simp] theorem State.wr_epochShadow (r : RegId) (v : Word) (i j : Nat) : (s.wr r v i j).epochShadow = s.epochShadow := rfl
@[simp] theorem State.wr_boundaryShadow (r : RegId) (v : Word) (i j : Nat) : (s.wr r v i j).boundaryShadow = s.boundaryShadow := rfl
@[simp] theorem State.wr_force (r : RegId) (v : Word) (i j : Nat) : (s.wr r v i j).force = s.force := rfl
@[simp] theorem State.wr_readData (r : RegId) (v : Word) (i j : Nat) : (s.wr r v i j).readData = s.readData := rfl
@[simp] theorem State.wr_portWords (r : RegId) (v : Word) (i j : Nat) : (s.wr r v i j).portWords = s.portWords := rfl
@[simp] theorem State.wr_portFlag (r : RegId) (v : Word) (i j : Nat) : (s.wr r v i j).portFlag = s.portFlag := rfl
@[simp] theorem State.wr_portPoison (r : RegId) (v : Word) (i j : Nat) : (s.wr r v i j).portPoison = s.portPoison := rfl
@[simp] theorem State.wr_mem (r : RegId) (v : Word) (i j : Nat) : (s.wr r v i j).mem = s.mem := rfl
@[simp] theorem State.wr_poison (r : RegId) (v : Word) (i j : Nat) : (s.wr r v i j).poison = s.poison := rfl
@[simp] theorem State.wr_flips (r : RegId) (v : Word) (i j : Nat) : (s.wr r v i j).flips = s.flips := rfl
@[simp] theorem State.wr_verified (r : RegId) (v : Word) (i j : Nat) : (s.wr r v i j).verified = s.verified := rfl
@[simp] theorem State.wr_stores (r : RegId) (v : Word) (i j : Nat) : (s.wr r v i j).stores = s.stores := rfl
@[simp] theorem State.wr_cores (r : RegId) (v : Word) (i j : Nat) : (s.wr r v i j).cores = s.cores := rfl
@[simp] theorem State.wr_keepers (r : RegId) (v : Word) (i j : Nat) : (s.wr r v i j).keepers = s.keepers := rfl
@[simp] theorem State.wr_pics (r : RegId) (v : Word) (i j : Nat) : (s.wr r v i j).pics = s.pics := rfl
@[simp] theorem State.wr_paths (r : RegId) (v : Word) (i j : Nat) : (s.wr r v i j).paths = s.paths := rfl
@[simp] theorem State.wr_kn (r : RegId) (v : Word) (i j : Nat) : (s.wr r v i j).kn = s.kn := rfl
@[simp] theorem State.wr_mot (r : RegId) (v : Word) (i j : Nat) : (s.wr r v i j).mot = s.mot := rfl
@[simp] theorem State.wr_fab (r : RegId) (v : Word) (i j : Nat) : (s.wr r v i j).fab = s.fab := rfl
@[simp] theorem State.wr_cmp (r : RegId) (v : Word) (i j : Nat) : (s.wr r v i j).cmp = s.cmp := rfl
@[simp] theorem State.wr_sinks (r : RegId) (v : Word) (i j : Nat) : (s.wr r v i j).sinks = s.sinks := rfl
@[simp] theorem State.wr_rasters (r : RegId) (v : Word) (i j : Nat) : (s.wr r v i j).rasters = s.rasters := rfl
@[simp] theorem State.wr_net (r : RegId) (v : Word) (i j : Nat) : (s.wr r v i j).net = s.net := rfl
@[simp] theorem State.wr_tu (r : RegId) (v : Word) (i j : Nat) : (s.wr r v i j).tu = s.tu := rfl
@[simp] theorem State.wr_irq (r : RegId) (v : Word) (i j : Nat) : (s.wr r v i j).irq = s.irq := rfl
@[simp] theorem State.wr_boot (r : RegId) (v : Word) (i j : Nat) : (s.wr r v i j).boot = s.boot := rfl
@[simp] theorem State.wr_tst (r : RegId) (v : Word) (i j : Nat) : (s.wr r v i j).tst = s.tst := rfl
@[simp] theorem State.wr_log (r : RegId) (v : Word) (i j : Nat) : (s.wr r v i j).log = s.log := rfl
@[simp] theorem State.wr_logSeq (r : RegId) (v : Word) (i j : Nat) : (s.wr r v i j).logSeq = s.logSeq := rfl
@[simp] theorem State.wr_raised (r : RegId) (v : Word) (i j : Nat) : (s.wr r v i j).raised = s.raised := rfl
@[simp] theorem State.wr_frameRaised (r : RegId) (v : Word) (i j : Nat) : (s.wr r v i j).frameRaised = s.frameRaised := rfl
@[simp] theorem State.wr_fresh (r : RegId) (v : Word) (i j : Nat) : (s.wr r v i j).fresh = s.fresh := rfl
@[simp] theorem State.wr_thermTrip (r : RegId) (v : Word) (i j : Nat) : (s.wr r v i j).thermTrip = s.thermTrip := rfl

/-! #### setFld -/

@[simp] theorem State.setFld_pending (f : RegField) (x i j : Nat) : (s.setFld f x i j).pending = s.pending := rfl
@[simp] theorem State.setFld_time (f : RegField) (x i j : Nat) : (s.setFld f x i j).time = s.time := rfl
@[simp] theorem State.setFld_epochShadow (f : RegField) (x i j : Nat) : (s.setFld f x i j).epochShadow = s.epochShadow := rfl
@[simp] theorem State.setFld_boundaryShadow (f : RegField) (x i j : Nat) : (s.setFld f x i j).boundaryShadow = s.boundaryShadow := rfl
@[simp] theorem State.setFld_force (f : RegField) (x i j : Nat) : (s.setFld f x i j).force = s.force := rfl
@[simp] theorem State.setFld_readData (f : RegField) (x i j : Nat) : (s.setFld f x i j).readData = s.readData := rfl
@[simp] theorem State.setFld_portWords (f : RegField) (x i j : Nat) : (s.setFld f x i j).portWords = s.portWords := rfl
@[simp] theorem State.setFld_portFlag (f : RegField) (x i j : Nat) : (s.setFld f x i j).portFlag = s.portFlag := rfl
@[simp] theorem State.setFld_portPoison (f : RegField) (x i j : Nat) : (s.setFld f x i j).portPoison = s.portPoison := rfl
@[simp] theorem State.setFld_mem (f : RegField) (x i j : Nat) : (s.setFld f x i j).mem = s.mem := rfl
@[simp] theorem State.setFld_poison (f : RegField) (x i j : Nat) : (s.setFld f x i j).poison = s.poison := rfl
@[simp] theorem State.setFld_flips (f : RegField) (x i j : Nat) : (s.setFld f x i j).flips = s.flips := rfl
@[simp] theorem State.setFld_verified (f : RegField) (x i j : Nat) : (s.setFld f x i j).verified = s.verified := rfl
@[simp] theorem State.setFld_stores (f : RegField) (x i j : Nat) : (s.setFld f x i j).stores = s.stores := rfl
@[simp] theorem State.setFld_cores (f : RegField) (x i j : Nat) : (s.setFld f x i j).cores = s.cores := rfl
@[simp] theorem State.setFld_keepers (f : RegField) (x i j : Nat) : (s.setFld f x i j).keepers = s.keepers := rfl
@[simp] theorem State.setFld_pics (f : RegField) (x i j : Nat) : (s.setFld f x i j).pics = s.pics := rfl
@[simp] theorem State.setFld_paths (f : RegField) (x i j : Nat) : (s.setFld f x i j).paths = s.paths := rfl
@[simp] theorem State.setFld_kn (f : RegField) (x i j : Nat) : (s.setFld f x i j).kn = s.kn := rfl
@[simp] theorem State.setFld_mot (f : RegField) (x i j : Nat) : (s.setFld f x i j).mot = s.mot := rfl
@[simp] theorem State.setFld_fab (f : RegField) (x i j : Nat) : (s.setFld f x i j).fab = s.fab := rfl
@[simp] theorem State.setFld_cmp (f : RegField) (x i j : Nat) : (s.setFld f x i j).cmp = s.cmp := rfl
@[simp] theorem State.setFld_sinks (f : RegField) (x i j : Nat) : (s.setFld f x i j).sinks = s.sinks := rfl
@[simp] theorem State.setFld_rasters (f : RegField) (x i j : Nat) : (s.setFld f x i j).rasters = s.rasters := rfl
@[simp] theorem State.setFld_net (f : RegField) (x i j : Nat) : (s.setFld f x i j).net = s.net := rfl
@[simp] theorem State.setFld_tu (f : RegField) (x i j : Nat) : (s.setFld f x i j).tu = s.tu := rfl
@[simp] theorem State.setFld_irq (f : RegField) (x i j : Nat) : (s.setFld f x i j).irq = s.irq := rfl
@[simp] theorem State.setFld_boot (f : RegField) (x i j : Nat) : (s.setFld f x i j).boot = s.boot := rfl
@[simp] theorem State.setFld_tst (f : RegField) (x i j : Nat) : (s.setFld f x i j).tst = s.tst := rfl
@[simp] theorem State.setFld_log (f : RegField) (x i j : Nat) : (s.setFld f x i j).log = s.log := rfl
@[simp] theorem State.setFld_logSeq (f : RegField) (x i j : Nat) : (s.setFld f x i j).logSeq = s.logSeq := rfl
@[simp] theorem State.setFld_raised (f : RegField) (x i j : Nat) : (s.setFld f x i j).raised = s.raised := rfl
@[simp] theorem State.setFld_frameRaised (f : RegField) (x i j : Nat) : (s.setFld f x i j).frameRaised = s.frameRaised := rfl
@[simp] theorem State.setFld_fresh (f : RegField) (x i j : Nat) : (s.setFld f x i j).fresh = s.fresh := rfl
@[simp] theorem State.setFld_thermTrip (f : RegField) (x i j : Nat) : (s.setFld f x i j).thermTrip = s.thermTrip := rfl

/-! #### setBit -/

@[simp] theorem State.setBit_pending (f : RegField) (b i j : Nat) : (s.setBit f b i j).pending = s.pending := rfl
@[simp] theorem State.setBit_time (f : RegField) (b i j : Nat) : (s.setBit f b i j).time = s.time := rfl
@[simp] theorem State.setBit_epochShadow (f : RegField) (b i j : Nat) : (s.setBit f b i j).epochShadow = s.epochShadow := rfl
@[simp] theorem State.setBit_boundaryShadow (f : RegField) (b i j : Nat) : (s.setBit f b i j).boundaryShadow = s.boundaryShadow := rfl
@[simp] theorem State.setBit_force (f : RegField) (b i j : Nat) : (s.setBit f b i j).force = s.force := rfl
@[simp] theorem State.setBit_readData (f : RegField) (b i j : Nat) : (s.setBit f b i j).readData = s.readData := rfl
@[simp] theorem State.setBit_portWords (f : RegField) (b i j : Nat) : (s.setBit f b i j).portWords = s.portWords := rfl
@[simp] theorem State.setBit_portFlag (f : RegField) (b i j : Nat) : (s.setBit f b i j).portFlag = s.portFlag := rfl
@[simp] theorem State.setBit_portPoison (f : RegField) (b i j : Nat) : (s.setBit f b i j).portPoison = s.portPoison := rfl
@[simp] theorem State.setBit_mem (f : RegField) (b i j : Nat) : (s.setBit f b i j).mem = s.mem := rfl
@[simp] theorem State.setBit_poison (f : RegField) (b i j : Nat) : (s.setBit f b i j).poison = s.poison := rfl
@[simp] theorem State.setBit_flips (f : RegField) (b i j : Nat) : (s.setBit f b i j).flips = s.flips := rfl
@[simp] theorem State.setBit_verified (f : RegField) (b i j : Nat) : (s.setBit f b i j).verified = s.verified := rfl
@[simp] theorem State.setBit_stores (f : RegField) (b i j : Nat) : (s.setBit f b i j).stores = s.stores := rfl
@[simp] theorem State.setBit_cores (f : RegField) (b i j : Nat) : (s.setBit f b i j).cores = s.cores := rfl
@[simp] theorem State.setBit_keepers (f : RegField) (b i j : Nat) : (s.setBit f b i j).keepers = s.keepers := rfl
@[simp] theorem State.setBit_pics (f : RegField) (b i j : Nat) : (s.setBit f b i j).pics = s.pics := rfl
@[simp] theorem State.setBit_paths (f : RegField) (b i j : Nat) : (s.setBit f b i j).paths = s.paths := rfl
@[simp] theorem State.setBit_kn (f : RegField) (b i j : Nat) : (s.setBit f b i j).kn = s.kn := rfl
@[simp] theorem State.setBit_mot (f : RegField) (b i j : Nat) : (s.setBit f b i j).mot = s.mot := rfl
@[simp] theorem State.setBit_fab (f : RegField) (b i j : Nat) : (s.setBit f b i j).fab = s.fab := rfl
@[simp] theorem State.setBit_cmp (f : RegField) (b i j : Nat) : (s.setBit f b i j).cmp = s.cmp := rfl
@[simp] theorem State.setBit_sinks (f : RegField) (b i j : Nat) : (s.setBit f b i j).sinks = s.sinks := rfl
@[simp] theorem State.setBit_rasters (f : RegField) (b i j : Nat) : (s.setBit f b i j).rasters = s.rasters := rfl
@[simp] theorem State.setBit_net (f : RegField) (b i j : Nat) : (s.setBit f b i j).net = s.net := rfl
@[simp] theorem State.setBit_tu (f : RegField) (b i j : Nat) : (s.setBit f b i j).tu = s.tu := rfl
@[simp] theorem State.setBit_irq (f : RegField) (b i j : Nat) : (s.setBit f b i j).irq = s.irq := rfl
@[simp] theorem State.setBit_boot (f : RegField) (b i j : Nat) : (s.setBit f b i j).boot = s.boot := rfl
@[simp] theorem State.setBit_tst (f : RegField) (b i j : Nat) : (s.setBit f b i j).tst = s.tst := rfl
@[simp] theorem State.setBit_log (f : RegField) (b i j : Nat) : (s.setBit f b i j).log = s.log := rfl
@[simp] theorem State.setBit_logSeq (f : RegField) (b i j : Nat) : (s.setBit f b i j).logSeq = s.logSeq := rfl
@[simp] theorem State.setBit_raised (f : RegField) (b i j : Nat) : (s.setBit f b i j).raised = s.raised := rfl
@[simp] theorem State.setBit_frameRaised (f : RegField) (b i j : Nat) : (s.setBit f b i j).frameRaised = s.frameRaised := rfl
@[simp] theorem State.setBit_fresh (f : RegField) (b i j : Nat) : (s.setBit f b i j).fresh = s.fresh := rfl
@[simp] theorem State.setBit_thermTrip (f : RegField) (b i j : Nat) : (s.setBit f b i j).thermTrip = s.thermTrip := rfl

/-! #### clrBit -/

@[simp] theorem State.clrBit_pending (f : RegField) (b i j : Nat) : (s.clrBit f b i j).pending = s.pending := rfl
@[simp] theorem State.clrBit_time (f : RegField) (b i j : Nat) : (s.clrBit f b i j).time = s.time := rfl
@[simp] theorem State.clrBit_epochShadow (f : RegField) (b i j : Nat) : (s.clrBit f b i j).epochShadow = s.epochShadow := rfl
@[simp] theorem State.clrBit_boundaryShadow (f : RegField) (b i j : Nat) : (s.clrBit f b i j).boundaryShadow = s.boundaryShadow := rfl
@[simp] theorem State.clrBit_force (f : RegField) (b i j : Nat) : (s.clrBit f b i j).force = s.force := rfl
@[simp] theorem State.clrBit_readData (f : RegField) (b i j : Nat) : (s.clrBit f b i j).readData = s.readData := rfl
@[simp] theorem State.clrBit_portWords (f : RegField) (b i j : Nat) : (s.clrBit f b i j).portWords = s.portWords := rfl
@[simp] theorem State.clrBit_portFlag (f : RegField) (b i j : Nat) : (s.clrBit f b i j).portFlag = s.portFlag := rfl
@[simp] theorem State.clrBit_portPoison (f : RegField) (b i j : Nat) : (s.clrBit f b i j).portPoison = s.portPoison := rfl
@[simp] theorem State.clrBit_mem (f : RegField) (b i j : Nat) : (s.clrBit f b i j).mem = s.mem := rfl
@[simp] theorem State.clrBit_poison (f : RegField) (b i j : Nat) : (s.clrBit f b i j).poison = s.poison := rfl
@[simp] theorem State.clrBit_flips (f : RegField) (b i j : Nat) : (s.clrBit f b i j).flips = s.flips := rfl
@[simp] theorem State.clrBit_verified (f : RegField) (b i j : Nat) : (s.clrBit f b i j).verified = s.verified := rfl
@[simp] theorem State.clrBit_stores (f : RegField) (b i j : Nat) : (s.clrBit f b i j).stores = s.stores := rfl
@[simp] theorem State.clrBit_cores (f : RegField) (b i j : Nat) : (s.clrBit f b i j).cores = s.cores := rfl
@[simp] theorem State.clrBit_keepers (f : RegField) (b i j : Nat) : (s.clrBit f b i j).keepers = s.keepers := rfl
@[simp] theorem State.clrBit_pics (f : RegField) (b i j : Nat) : (s.clrBit f b i j).pics = s.pics := rfl
@[simp] theorem State.clrBit_paths (f : RegField) (b i j : Nat) : (s.clrBit f b i j).paths = s.paths := rfl
@[simp] theorem State.clrBit_kn (f : RegField) (b i j : Nat) : (s.clrBit f b i j).kn = s.kn := rfl
@[simp] theorem State.clrBit_mot (f : RegField) (b i j : Nat) : (s.clrBit f b i j).mot = s.mot := rfl
@[simp] theorem State.clrBit_fab (f : RegField) (b i j : Nat) : (s.clrBit f b i j).fab = s.fab := rfl
@[simp] theorem State.clrBit_cmp (f : RegField) (b i j : Nat) : (s.clrBit f b i j).cmp = s.cmp := rfl
@[simp] theorem State.clrBit_sinks (f : RegField) (b i j : Nat) : (s.clrBit f b i j).sinks = s.sinks := rfl
@[simp] theorem State.clrBit_rasters (f : RegField) (b i j : Nat) : (s.clrBit f b i j).rasters = s.rasters := rfl
@[simp] theorem State.clrBit_net (f : RegField) (b i j : Nat) : (s.clrBit f b i j).net = s.net := rfl
@[simp] theorem State.clrBit_tu (f : RegField) (b i j : Nat) : (s.clrBit f b i j).tu = s.tu := rfl
@[simp] theorem State.clrBit_irq (f : RegField) (b i j : Nat) : (s.clrBit f b i j).irq = s.irq := rfl
@[simp] theorem State.clrBit_boot (f : RegField) (b i j : Nat) : (s.clrBit f b i j).boot = s.boot := rfl
@[simp] theorem State.clrBit_tst (f : RegField) (b i j : Nat) : (s.clrBit f b i j).tst = s.tst := rfl
@[simp] theorem State.clrBit_log (f : RegField) (b i j : Nat) : (s.clrBit f b i j).log = s.log := rfl
@[simp] theorem State.clrBit_logSeq (f : RegField) (b i j : Nat) : (s.clrBit f b i j).logSeq = s.logSeq := rfl
@[simp] theorem State.clrBit_raised (f : RegField) (b i j : Nat) : (s.clrBit f b i j).raised = s.raised := rfl
@[simp] theorem State.clrBit_frameRaised (f : RegField) (b i j : Nat) : (s.clrBit f b i j).frameRaised = s.frameRaised := rfl
@[simp] theorem State.clrBit_fresh (f : RegField) (b i j : Nat) : (s.clrBit f b i j).fresh = s.fresh := rfl
@[simp] theorem State.clrBit_thermTrip (f : RegField) (b i j : Nat) : (s.clrBit f b i j).thermTrip = s.thermTrip := rfl

/-! #### addSat -/

@[simp] theorem State.addSat_pending (f : RegField) (n i j : Nat) : (s.addSat f n i j).pending = s.pending := rfl
@[simp] theorem State.addSat_time (f : RegField) (n i j : Nat) : (s.addSat f n i j).time = s.time := rfl
@[simp] theorem State.addSat_epochShadow (f : RegField) (n i j : Nat) : (s.addSat f n i j).epochShadow = s.epochShadow := rfl
@[simp] theorem State.addSat_boundaryShadow (f : RegField) (n i j : Nat) : (s.addSat f n i j).boundaryShadow = s.boundaryShadow := rfl
@[simp] theorem State.addSat_force (f : RegField) (n i j : Nat) : (s.addSat f n i j).force = s.force := rfl
@[simp] theorem State.addSat_readData (f : RegField) (n i j : Nat) : (s.addSat f n i j).readData = s.readData := rfl
@[simp] theorem State.addSat_portWords (f : RegField) (n i j : Nat) : (s.addSat f n i j).portWords = s.portWords := rfl
@[simp] theorem State.addSat_portFlag (f : RegField) (n i j : Nat) : (s.addSat f n i j).portFlag = s.portFlag := rfl
@[simp] theorem State.addSat_portPoison (f : RegField) (n i j : Nat) : (s.addSat f n i j).portPoison = s.portPoison := rfl
@[simp] theorem State.addSat_mem (f : RegField) (n i j : Nat) : (s.addSat f n i j).mem = s.mem := rfl
@[simp] theorem State.addSat_poison (f : RegField) (n i j : Nat) : (s.addSat f n i j).poison = s.poison := rfl
@[simp] theorem State.addSat_flips (f : RegField) (n i j : Nat) : (s.addSat f n i j).flips = s.flips := rfl
@[simp] theorem State.addSat_verified (f : RegField) (n i j : Nat) : (s.addSat f n i j).verified = s.verified := rfl
@[simp] theorem State.addSat_stores (f : RegField) (n i j : Nat) : (s.addSat f n i j).stores = s.stores := rfl
@[simp] theorem State.addSat_cores (f : RegField) (n i j : Nat) : (s.addSat f n i j).cores = s.cores := rfl
@[simp] theorem State.addSat_keepers (f : RegField) (n i j : Nat) : (s.addSat f n i j).keepers = s.keepers := rfl
@[simp] theorem State.addSat_pics (f : RegField) (n i j : Nat) : (s.addSat f n i j).pics = s.pics := rfl
@[simp] theorem State.addSat_paths (f : RegField) (n i j : Nat) : (s.addSat f n i j).paths = s.paths := rfl
@[simp] theorem State.addSat_kn (f : RegField) (n i j : Nat) : (s.addSat f n i j).kn = s.kn := rfl
@[simp] theorem State.addSat_mot (f : RegField) (n i j : Nat) : (s.addSat f n i j).mot = s.mot := rfl
@[simp] theorem State.addSat_fab (f : RegField) (n i j : Nat) : (s.addSat f n i j).fab = s.fab := rfl
@[simp] theorem State.addSat_cmp (f : RegField) (n i j : Nat) : (s.addSat f n i j).cmp = s.cmp := rfl
@[simp] theorem State.addSat_sinks (f : RegField) (n i j : Nat) : (s.addSat f n i j).sinks = s.sinks := rfl
@[simp] theorem State.addSat_rasters (f : RegField) (n i j : Nat) : (s.addSat f n i j).rasters = s.rasters := rfl
@[simp] theorem State.addSat_net (f : RegField) (n i j : Nat) : (s.addSat f n i j).net = s.net := rfl
@[simp] theorem State.addSat_tu (f : RegField) (n i j : Nat) : (s.addSat f n i j).tu = s.tu := rfl
@[simp] theorem State.addSat_irq (f : RegField) (n i j : Nat) : (s.addSat f n i j).irq = s.irq := rfl
@[simp] theorem State.addSat_boot (f : RegField) (n i j : Nat) : (s.addSat f n i j).boot = s.boot := rfl
@[simp] theorem State.addSat_tst (f : RegField) (n i j : Nat) : (s.addSat f n i j).tst = s.tst := rfl
@[simp] theorem State.addSat_log (f : RegField) (n i j : Nat) : (s.addSat f n i j).log = s.log := rfl
@[simp] theorem State.addSat_logSeq (f : RegField) (n i j : Nat) : (s.addSat f n i j).logSeq = s.logSeq := rfl
@[simp] theorem State.addSat_raised (f : RegField) (n i j : Nat) : (s.addSat f n i j).raised = s.raised := rfl
@[simp] theorem State.addSat_frameRaised (f : RegField) (n i j : Nat) : (s.addSat f n i j).frameRaised = s.frameRaised := rfl
@[simp] theorem State.addSat_fresh (f : RegField) (n i j : Nat) : (s.addSat f n i j).fresh = s.fresh := rfl
@[simp] theorem State.addSat_thermTrip (f : RegField) (n i j : Nat) : (s.addSat f n i j).thermTrip = s.thermTrip := rfl

/-! #### addWrap -/

@[simp] theorem State.addWrap_pending (f : RegField) (n i j : Nat) : (s.addWrap f n i j).pending = s.pending := rfl
@[simp] theorem State.addWrap_time (f : RegField) (n i j : Nat) : (s.addWrap f n i j).time = s.time := rfl
@[simp] theorem State.addWrap_epochShadow (f : RegField) (n i j : Nat) : (s.addWrap f n i j).epochShadow = s.epochShadow := rfl
@[simp] theorem State.addWrap_boundaryShadow (f : RegField) (n i j : Nat) : (s.addWrap f n i j).boundaryShadow = s.boundaryShadow := rfl
@[simp] theorem State.addWrap_force (f : RegField) (n i j : Nat) : (s.addWrap f n i j).force = s.force := rfl
@[simp] theorem State.addWrap_readData (f : RegField) (n i j : Nat) : (s.addWrap f n i j).readData = s.readData := rfl
@[simp] theorem State.addWrap_portWords (f : RegField) (n i j : Nat) : (s.addWrap f n i j).portWords = s.portWords := rfl
@[simp] theorem State.addWrap_portFlag (f : RegField) (n i j : Nat) : (s.addWrap f n i j).portFlag = s.portFlag := rfl
@[simp] theorem State.addWrap_portPoison (f : RegField) (n i j : Nat) : (s.addWrap f n i j).portPoison = s.portPoison := rfl
@[simp] theorem State.addWrap_mem (f : RegField) (n i j : Nat) : (s.addWrap f n i j).mem = s.mem := rfl
@[simp] theorem State.addWrap_poison (f : RegField) (n i j : Nat) : (s.addWrap f n i j).poison = s.poison := rfl
@[simp] theorem State.addWrap_flips (f : RegField) (n i j : Nat) : (s.addWrap f n i j).flips = s.flips := rfl
@[simp] theorem State.addWrap_verified (f : RegField) (n i j : Nat) : (s.addWrap f n i j).verified = s.verified := rfl
@[simp] theorem State.addWrap_stores (f : RegField) (n i j : Nat) : (s.addWrap f n i j).stores = s.stores := rfl
@[simp] theorem State.addWrap_cores (f : RegField) (n i j : Nat) : (s.addWrap f n i j).cores = s.cores := rfl
@[simp] theorem State.addWrap_keepers (f : RegField) (n i j : Nat) : (s.addWrap f n i j).keepers = s.keepers := rfl
@[simp] theorem State.addWrap_pics (f : RegField) (n i j : Nat) : (s.addWrap f n i j).pics = s.pics := rfl
@[simp] theorem State.addWrap_paths (f : RegField) (n i j : Nat) : (s.addWrap f n i j).paths = s.paths := rfl
@[simp] theorem State.addWrap_kn (f : RegField) (n i j : Nat) : (s.addWrap f n i j).kn = s.kn := rfl
@[simp] theorem State.addWrap_mot (f : RegField) (n i j : Nat) : (s.addWrap f n i j).mot = s.mot := rfl
@[simp] theorem State.addWrap_fab (f : RegField) (n i j : Nat) : (s.addWrap f n i j).fab = s.fab := rfl
@[simp] theorem State.addWrap_cmp (f : RegField) (n i j : Nat) : (s.addWrap f n i j).cmp = s.cmp := rfl
@[simp] theorem State.addWrap_sinks (f : RegField) (n i j : Nat) : (s.addWrap f n i j).sinks = s.sinks := rfl
@[simp] theorem State.addWrap_rasters (f : RegField) (n i j : Nat) : (s.addWrap f n i j).rasters = s.rasters := rfl
@[simp] theorem State.addWrap_net (f : RegField) (n i j : Nat) : (s.addWrap f n i j).net = s.net := rfl
@[simp] theorem State.addWrap_tu (f : RegField) (n i j : Nat) : (s.addWrap f n i j).tu = s.tu := rfl
@[simp] theorem State.addWrap_irq (f : RegField) (n i j : Nat) : (s.addWrap f n i j).irq = s.irq := rfl
@[simp] theorem State.addWrap_boot (f : RegField) (n i j : Nat) : (s.addWrap f n i j).boot = s.boot := rfl
@[simp] theorem State.addWrap_tst (f : RegField) (n i j : Nat) : (s.addWrap f n i j).tst = s.tst := rfl
@[simp] theorem State.addWrap_log (f : RegField) (n i j : Nat) : (s.addWrap f n i j).log = s.log := rfl
@[simp] theorem State.addWrap_logSeq (f : RegField) (n i j : Nat) : (s.addWrap f n i j).logSeq = s.logSeq := rfl
@[simp] theorem State.addWrap_raised (f : RegField) (n i j : Nat) : (s.addWrap f n i j).raised = s.raised := rfl
@[simp] theorem State.addWrap_frameRaised (f : RegField) (n i j : Nat) : (s.addWrap f n i j).frameRaised = s.frameRaised := rfl
@[simp] theorem State.addWrap_fresh (f : RegField) (n i j : Nat) : (s.addWrap f n i j).fresh = s.fresh := rfl
@[simp] theorem State.addWrap_thermTrip (f : RegField) (n i j : Nat) : (s.addWrap f n i j).thermTrip = s.thermTrip := rfl

/-! #### plainWrite -/

@[simp] theorem State.plainWrite_pending (r : RegId) (v : Word) (i j : Nat) : (s.plainWrite r v i j).pending = s.pending := rfl
@[simp] theorem State.plainWrite_time (r : RegId) (v : Word) (i j : Nat) : (s.plainWrite r v i j).time = s.time := rfl
@[simp] theorem State.plainWrite_epochShadow (r : RegId) (v : Word) (i j : Nat) : (s.plainWrite r v i j).epochShadow = s.epochShadow := rfl
@[simp] theorem State.plainWrite_boundaryShadow (r : RegId) (v : Word) (i j : Nat) : (s.plainWrite r v i j).boundaryShadow = s.boundaryShadow := rfl
@[simp] theorem State.plainWrite_force (r : RegId) (v : Word) (i j : Nat) : (s.plainWrite r v i j).force = s.force := rfl
@[simp] theorem State.plainWrite_readData (r : RegId) (v : Word) (i j : Nat) : (s.plainWrite r v i j).readData = s.readData := rfl
@[simp] theorem State.plainWrite_portWords (r : RegId) (v : Word) (i j : Nat) : (s.plainWrite r v i j).portWords = s.portWords := rfl
@[simp] theorem State.plainWrite_portFlag (r : RegId) (v : Word) (i j : Nat) : (s.plainWrite r v i j).portFlag = s.portFlag := rfl
@[simp] theorem State.plainWrite_portPoison (r : RegId) (v : Word) (i j : Nat) : (s.plainWrite r v i j).portPoison = s.portPoison := rfl
@[simp] theorem State.plainWrite_mem (r : RegId) (v : Word) (i j : Nat) : (s.plainWrite r v i j).mem = s.mem := rfl
@[simp] theorem State.plainWrite_poison (r : RegId) (v : Word) (i j : Nat) : (s.plainWrite r v i j).poison = s.poison := rfl
@[simp] theorem State.plainWrite_flips (r : RegId) (v : Word) (i j : Nat) : (s.plainWrite r v i j).flips = s.flips := rfl
@[simp] theorem State.plainWrite_verified (r : RegId) (v : Word) (i j : Nat) : (s.plainWrite r v i j).verified = s.verified := rfl
@[simp] theorem State.plainWrite_stores (r : RegId) (v : Word) (i j : Nat) : (s.plainWrite r v i j).stores = s.stores := rfl
@[simp] theorem State.plainWrite_cores (r : RegId) (v : Word) (i j : Nat) : (s.plainWrite r v i j).cores = s.cores := rfl
@[simp] theorem State.plainWrite_keepers (r : RegId) (v : Word) (i j : Nat) : (s.plainWrite r v i j).keepers = s.keepers := rfl
@[simp] theorem State.plainWrite_pics (r : RegId) (v : Word) (i j : Nat) : (s.plainWrite r v i j).pics = s.pics := rfl
@[simp] theorem State.plainWrite_paths (r : RegId) (v : Word) (i j : Nat) : (s.plainWrite r v i j).paths = s.paths := rfl
@[simp] theorem State.plainWrite_kn (r : RegId) (v : Word) (i j : Nat) : (s.plainWrite r v i j).kn = s.kn := rfl
@[simp] theorem State.plainWrite_mot (r : RegId) (v : Word) (i j : Nat) : (s.plainWrite r v i j).mot = s.mot := rfl
@[simp] theorem State.plainWrite_fab (r : RegId) (v : Word) (i j : Nat) : (s.plainWrite r v i j).fab = s.fab := rfl
@[simp] theorem State.plainWrite_cmp (r : RegId) (v : Word) (i j : Nat) : (s.plainWrite r v i j).cmp = s.cmp := rfl
@[simp] theorem State.plainWrite_sinks (r : RegId) (v : Word) (i j : Nat) : (s.plainWrite r v i j).sinks = s.sinks := rfl
@[simp] theorem State.plainWrite_rasters (r : RegId) (v : Word) (i j : Nat) : (s.plainWrite r v i j).rasters = s.rasters := rfl
@[simp] theorem State.plainWrite_net (r : RegId) (v : Word) (i j : Nat) : (s.plainWrite r v i j).net = s.net := rfl
@[simp] theorem State.plainWrite_tu (r : RegId) (v : Word) (i j : Nat) : (s.plainWrite r v i j).tu = s.tu := rfl
@[simp] theorem State.plainWrite_irq (r : RegId) (v : Word) (i j : Nat) : (s.plainWrite r v i j).irq = s.irq := rfl
@[simp] theorem State.plainWrite_boot (r : RegId) (v : Word) (i j : Nat) : (s.plainWrite r v i j).boot = s.boot := rfl
@[simp] theorem State.plainWrite_tst (r : RegId) (v : Word) (i j : Nat) : (s.plainWrite r v i j).tst = s.tst := rfl
@[simp] theorem State.plainWrite_log (r : RegId) (v : Word) (i j : Nat) : (s.plainWrite r v i j).log = s.log := rfl
@[simp] theorem State.plainWrite_logSeq (r : RegId) (v : Word) (i j : Nat) : (s.plainWrite r v i j).logSeq = s.logSeq := rfl
@[simp] theorem State.plainWrite_raised (r : RegId) (v : Word) (i j : Nat) : (s.plainWrite r v i j).raised = s.raised := rfl
@[simp] theorem State.plainWrite_frameRaised (r : RegId) (v : Word) (i j : Nat) : (s.plainWrite r v i j).frameRaised = s.frameRaised := rfl
@[simp] theorem State.plainWrite_fresh (r : RegId) (v : Word) (i j : Nat) : (s.plainWrite r v i j).fresh = s.fresh := rfl
@[simp] theorem State.plainWrite_thermTrip (r : RegId) (v : Word) (i j : Nat) : (s.plainWrite r v i j).thermTrip = s.thermTrip := rfl

/-! #### setCore -/

@[simp] theorem State.setCore_pending (c : Nat) (k : Core) : (s.setCore c k).pending = s.pending := rfl
@[simp] theorem State.setCore_time (c : Nat) (k : Core) : (s.setCore c k).time = s.time := rfl
@[simp] theorem State.setCore_regs (c : Nat) (k : Core) : (s.setCore c k).regs = s.regs := rfl
@[simp] theorem State.setCore_epochShadow (c : Nat) (k : Core) : (s.setCore c k).epochShadow = s.epochShadow := rfl
@[simp] theorem State.setCore_boundaryShadow (c : Nat) (k : Core) : (s.setCore c k).boundaryShadow = s.boundaryShadow := rfl
@[simp] theorem State.setCore_force (c : Nat) (k : Core) : (s.setCore c k).force = s.force := rfl
@[simp] theorem State.setCore_readData (c : Nat) (k : Core) : (s.setCore c k).readData = s.readData := rfl
@[simp] theorem State.setCore_portWords (c : Nat) (k : Core) : (s.setCore c k).portWords = s.portWords := rfl
@[simp] theorem State.setCore_portFlag (c : Nat) (k : Core) : (s.setCore c k).portFlag = s.portFlag := rfl
@[simp] theorem State.setCore_portPoison (c : Nat) (k : Core) : (s.setCore c k).portPoison = s.portPoison := rfl
@[simp] theorem State.setCore_mem (c : Nat) (k : Core) : (s.setCore c k).mem = s.mem := rfl
@[simp] theorem State.setCore_poison (c : Nat) (k : Core) : (s.setCore c k).poison = s.poison := rfl
@[simp] theorem State.setCore_flips (c : Nat) (k : Core) : (s.setCore c k).flips = s.flips := rfl
@[simp] theorem State.setCore_verified (c : Nat) (k : Core) : (s.setCore c k).verified = s.verified := rfl
@[simp] theorem State.setCore_stores (c : Nat) (k : Core) : (s.setCore c k).stores = s.stores := rfl
@[simp] theorem State.setCore_keepers (c : Nat) (k : Core) : (s.setCore c k).keepers = s.keepers := rfl
@[simp] theorem State.setCore_pics (c : Nat) (k : Core) : (s.setCore c k).pics = s.pics := rfl
@[simp] theorem State.setCore_paths (c : Nat) (k : Core) : (s.setCore c k).paths = s.paths := rfl
@[simp] theorem State.setCore_kn (c : Nat) (k : Core) : (s.setCore c k).kn = s.kn := rfl
@[simp] theorem State.setCore_mot (c : Nat) (k : Core) : (s.setCore c k).mot = s.mot := rfl
@[simp] theorem State.setCore_fab (c : Nat) (k : Core) : (s.setCore c k).fab = s.fab := rfl
@[simp] theorem State.setCore_cmp (c : Nat) (k : Core) : (s.setCore c k).cmp = s.cmp := rfl
@[simp] theorem State.setCore_sinks (c : Nat) (k : Core) : (s.setCore c k).sinks = s.sinks := rfl
@[simp] theorem State.setCore_rasters (c : Nat) (k : Core) : (s.setCore c k).rasters = s.rasters := rfl
@[simp] theorem State.setCore_net (c : Nat) (k : Core) : (s.setCore c k).net = s.net := rfl
@[simp] theorem State.setCore_tu (c : Nat) (k : Core) : (s.setCore c k).tu = s.tu := rfl
@[simp] theorem State.setCore_irq (c : Nat) (k : Core) : (s.setCore c k).irq = s.irq := rfl
@[simp] theorem State.setCore_boot (c : Nat) (k : Core) : (s.setCore c k).boot = s.boot := rfl
@[simp] theorem State.setCore_tst (c : Nat) (k : Core) : (s.setCore c k).tst = s.tst := rfl
@[simp] theorem State.setCore_log (c : Nat) (k : Core) : (s.setCore c k).log = s.log := rfl
@[simp] theorem State.setCore_logSeq (c : Nat) (k : Core) : (s.setCore c k).logSeq = s.logSeq := rfl
@[simp] theorem State.setCore_raised (c : Nat) (k : Core) : (s.setCore c k).raised = s.raised := rfl
@[simp] theorem State.setCore_frameRaised (c : Nat) (k : Core) : (s.setCore c k).frameRaised = s.frameRaised := rfl
@[simp] theorem State.setCore_fresh (c : Nat) (k : Core) : (s.setCore c k).fresh = s.fresh := rfl
@[simp] theorem State.setCore_thermTrip (c : Nat) (k : Core) : (s.setCore c k).thermTrip = s.thermTrip := rfl

/-! #### updCore -/

@[simp] theorem State.updCore_pending (c : Nat) (f : Core → Core) : (s.updCore c f).pending = s.pending := rfl
@[simp] theorem State.updCore_time (c : Nat) (f : Core → Core) : (s.updCore c f).time = s.time := rfl
@[simp] theorem State.updCore_regs (c : Nat) (f : Core → Core) : (s.updCore c f).regs = s.regs := rfl
@[simp] theorem State.updCore_epochShadow (c : Nat) (f : Core → Core) : (s.updCore c f).epochShadow = s.epochShadow := rfl
@[simp] theorem State.updCore_boundaryShadow (c : Nat) (f : Core → Core) : (s.updCore c f).boundaryShadow = s.boundaryShadow := rfl
@[simp] theorem State.updCore_force (c : Nat) (f : Core → Core) : (s.updCore c f).force = s.force := rfl
@[simp] theorem State.updCore_readData (c : Nat) (f : Core → Core) : (s.updCore c f).readData = s.readData := rfl
@[simp] theorem State.updCore_portWords (c : Nat) (f : Core → Core) : (s.updCore c f).portWords = s.portWords := rfl
@[simp] theorem State.updCore_portFlag (c : Nat) (f : Core → Core) : (s.updCore c f).portFlag = s.portFlag := rfl
@[simp] theorem State.updCore_portPoison (c : Nat) (f : Core → Core) : (s.updCore c f).portPoison = s.portPoison := rfl
@[simp] theorem State.updCore_mem (c : Nat) (f : Core → Core) : (s.updCore c f).mem = s.mem := rfl
@[simp] theorem State.updCore_poison (c : Nat) (f : Core → Core) : (s.updCore c f).poison = s.poison := rfl
@[simp] theorem State.updCore_flips (c : Nat) (f : Core → Core) : (s.updCore c f).flips = s.flips := rfl
@[simp] theorem State.updCore_verified (c : Nat) (f : Core → Core) : (s.updCore c f).verified = s.verified := rfl
@[simp] theorem State.updCore_stores (c : Nat) (f : Core → Core) : (s.updCore c f).stores = s.stores := rfl
@[simp] theorem State.updCore_keepers (c : Nat) (f : Core → Core) : (s.updCore c f).keepers = s.keepers := rfl
@[simp] theorem State.updCore_pics (c : Nat) (f : Core → Core) : (s.updCore c f).pics = s.pics := rfl
@[simp] theorem State.updCore_paths (c : Nat) (f : Core → Core) : (s.updCore c f).paths = s.paths := rfl
@[simp] theorem State.updCore_kn (c : Nat) (f : Core → Core) : (s.updCore c f).kn = s.kn := rfl
@[simp] theorem State.updCore_mot (c : Nat) (f : Core → Core) : (s.updCore c f).mot = s.mot := rfl
@[simp] theorem State.updCore_fab (c : Nat) (f : Core → Core) : (s.updCore c f).fab = s.fab := rfl
@[simp] theorem State.updCore_cmp (c : Nat) (f : Core → Core) : (s.updCore c f).cmp = s.cmp := rfl
@[simp] theorem State.updCore_sinks (c : Nat) (f : Core → Core) : (s.updCore c f).sinks = s.sinks := rfl
@[simp] theorem State.updCore_rasters (c : Nat) (f : Core → Core) : (s.updCore c f).rasters = s.rasters := rfl
@[simp] theorem State.updCore_net (c : Nat) (f : Core → Core) : (s.updCore c f).net = s.net := rfl
@[simp] theorem State.updCore_tu (c : Nat) (f : Core → Core) : (s.updCore c f).tu = s.tu := rfl
@[simp] theorem State.updCore_irq (c : Nat) (f : Core → Core) : (s.updCore c f).irq = s.irq := rfl
@[simp] theorem State.updCore_boot (c : Nat) (f : Core → Core) : (s.updCore c f).boot = s.boot := rfl
@[simp] theorem State.updCore_tst (c : Nat) (f : Core → Core) : (s.updCore c f).tst = s.tst := rfl
@[simp] theorem State.updCore_log (c : Nat) (f : Core → Core) : (s.updCore c f).log = s.log := rfl
@[simp] theorem State.updCore_logSeq (c : Nat) (f : Core → Core) : (s.updCore c f).logSeq = s.logSeq := rfl
@[simp] theorem State.updCore_raised (c : Nat) (f : Core → Core) : (s.updCore c f).raised = s.raised := rfl
@[simp] theorem State.updCore_frameRaised (c : Nat) (f : Core → Core) : (s.updCore c f).frameRaised = s.frameRaised := rfl
@[simp] theorem State.updCore_fresh (c : Nat) (f : Core → Core) : (s.updCore c f).fresh = s.fresh := rfl
@[simp] theorem State.updCore_thermTrip (c : Nat) (f : Core → Core) : (s.updCore c f).thermTrip = s.thermTrip := rfl

/-! #### setKeeper -/

@[simp] theorem State.setKeeper_pending (k : Nat) (v : Keeper) : (s.setKeeper k v).pending = s.pending := rfl
@[simp] theorem State.setKeeper_time (k : Nat) (v : Keeper) : (s.setKeeper k v).time = s.time := rfl
@[simp] theorem State.setKeeper_regs (k : Nat) (v : Keeper) : (s.setKeeper k v).regs = s.regs := rfl
@[simp] theorem State.setKeeper_epochShadow (k : Nat) (v : Keeper) : (s.setKeeper k v).epochShadow = s.epochShadow := rfl
@[simp] theorem State.setKeeper_boundaryShadow (k : Nat) (v : Keeper) : (s.setKeeper k v).boundaryShadow = s.boundaryShadow := rfl
@[simp] theorem State.setKeeper_force (k : Nat) (v : Keeper) : (s.setKeeper k v).force = s.force := rfl
@[simp] theorem State.setKeeper_readData (k : Nat) (v : Keeper) : (s.setKeeper k v).readData = s.readData := rfl
@[simp] theorem State.setKeeper_portWords (k : Nat) (v : Keeper) : (s.setKeeper k v).portWords = s.portWords := rfl
@[simp] theorem State.setKeeper_portFlag (k : Nat) (v : Keeper) : (s.setKeeper k v).portFlag = s.portFlag := rfl
@[simp] theorem State.setKeeper_portPoison (k : Nat) (v : Keeper) : (s.setKeeper k v).portPoison = s.portPoison := rfl
@[simp] theorem State.setKeeper_mem (k : Nat) (v : Keeper) : (s.setKeeper k v).mem = s.mem := rfl
@[simp] theorem State.setKeeper_poison (k : Nat) (v : Keeper) : (s.setKeeper k v).poison = s.poison := rfl
@[simp] theorem State.setKeeper_flips (k : Nat) (v : Keeper) : (s.setKeeper k v).flips = s.flips := rfl
@[simp] theorem State.setKeeper_verified (k : Nat) (v : Keeper) : (s.setKeeper k v).verified = s.verified := rfl
@[simp] theorem State.setKeeper_stores (k : Nat) (v : Keeper) : (s.setKeeper k v).stores = s.stores := rfl
@[simp] theorem State.setKeeper_cores (k : Nat) (v : Keeper) : (s.setKeeper k v).cores = s.cores := rfl
@[simp] theorem State.setKeeper_pics (k : Nat) (v : Keeper) : (s.setKeeper k v).pics = s.pics := rfl
@[simp] theorem State.setKeeper_paths (k : Nat) (v : Keeper) : (s.setKeeper k v).paths = s.paths := rfl
@[simp] theorem State.setKeeper_kn (k : Nat) (v : Keeper) : (s.setKeeper k v).kn = s.kn := rfl
@[simp] theorem State.setKeeper_mot (k : Nat) (v : Keeper) : (s.setKeeper k v).mot = s.mot := rfl
@[simp] theorem State.setKeeper_fab (k : Nat) (v : Keeper) : (s.setKeeper k v).fab = s.fab := rfl
@[simp] theorem State.setKeeper_cmp (k : Nat) (v : Keeper) : (s.setKeeper k v).cmp = s.cmp := rfl
@[simp] theorem State.setKeeper_sinks (k : Nat) (v : Keeper) : (s.setKeeper k v).sinks = s.sinks := rfl
@[simp] theorem State.setKeeper_rasters (k : Nat) (v : Keeper) : (s.setKeeper k v).rasters = s.rasters := rfl
@[simp] theorem State.setKeeper_net (k : Nat) (v : Keeper) : (s.setKeeper k v).net = s.net := rfl
@[simp] theorem State.setKeeper_tu (k : Nat) (v : Keeper) : (s.setKeeper k v).tu = s.tu := rfl
@[simp] theorem State.setKeeper_irq (k : Nat) (v : Keeper) : (s.setKeeper k v).irq = s.irq := rfl
@[simp] theorem State.setKeeper_boot (k : Nat) (v : Keeper) : (s.setKeeper k v).boot = s.boot := rfl
@[simp] theorem State.setKeeper_tst (k : Nat) (v : Keeper) : (s.setKeeper k v).tst = s.tst := rfl
@[simp] theorem State.setKeeper_log (k : Nat) (v : Keeper) : (s.setKeeper k v).log = s.log := rfl
@[simp] theorem State.setKeeper_logSeq (k : Nat) (v : Keeper) : (s.setKeeper k v).logSeq = s.logSeq := rfl
@[simp] theorem State.setKeeper_raised (k : Nat) (v : Keeper) : (s.setKeeper k v).raised = s.raised := rfl
@[simp] theorem State.setKeeper_frameRaised (k : Nat) (v : Keeper) : (s.setKeeper k v).frameRaised = s.frameRaised := rfl
@[simp] theorem State.setKeeper_fresh (k : Nat) (v : Keeper) : (s.setKeeper k v).fresh = s.fresh := rfl
@[simp] theorem State.setKeeper_thermTrip (k : Nat) (v : Keeper) : (s.setKeeper k v).thermTrip = s.thermTrip := rfl

/-! #### updKeeper -/

@[simp] theorem State.updKeeper_pending (k : Nat) (f : Keeper → Keeper) : (s.updKeeper k f).pending = s.pending := rfl
@[simp] theorem State.updKeeper_time (k : Nat) (f : Keeper → Keeper) : (s.updKeeper k f).time = s.time := rfl
@[simp] theorem State.updKeeper_regs (k : Nat) (f : Keeper → Keeper) : (s.updKeeper k f).regs = s.regs := rfl
@[simp] theorem State.updKeeper_epochShadow (k : Nat) (f : Keeper → Keeper) : (s.updKeeper k f).epochShadow = s.epochShadow := rfl
@[simp] theorem State.updKeeper_boundaryShadow (k : Nat) (f : Keeper → Keeper) : (s.updKeeper k f).boundaryShadow = s.boundaryShadow := rfl
@[simp] theorem State.updKeeper_force (k : Nat) (f : Keeper → Keeper) : (s.updKeeper k f).force = s.force := rfl
@[simp] theorem State.updKeeper_readData (k : Nat) (f : Keeper → Keeper) : (s.updKeeper k f).readData = s.readData := rfl
@[simp] theorem State.updKeeper_portWords (k : Nat) (f : Keeper → Keeper) : (s.updKeeper k f).portWords = s.portWords := rfl
@[simp] theorem State.updKeeper_portFlag (k : Nat) (f : Keeper → Keeper) : (s.updKeeper k f).portFlag = s.portFlag := rfl
@[simp] theorem State.updKeeper_portPoison (k : Nat) (f : Keeper → Keeper) : (s.updKeeper k f).portPoison = s.portPoison := rfl
@[simp] theorem State.updKeeper_mem (k : Nat) (f : Keeper → Keeper) : (s.updKeeper k f).mem = s.mem := rfl
@[simp] theorem State.updKeeper_poison (k : Nat) (f : Keeper → Keeper) : (s.updKeeper k f).poison = s.poison := rfl
@[simp] theorem State.updKeeper_flips (k : Nat) (f : Keeper → Keeper) : (s.updKeeper k f).flips = s.flips := rfl
@[simp] theorem State.updKeeper_verified (k : Nat) (f : Keeper → Keeper) : (s.updKeeper k f).verified = s.verified := rfl
@[simp] theorem State.updKeeper_stores (k : Nat) (f : Keeper → Keeper) : (s.updKeeper k f).stores = s.stores := rfl
@[simp] theorem State.updKeeper_cores (k : Nat) (f : Keeper → Keeper) : (s.updKeeper k f).cores = s.cores := rfl
@[simp] theorem State.updKeeper_pics (k : Nat) (f : Keeper → Keeper) : (s.updKeeper k f).pics = s.pics := rfl
@[simp] theorem State.updKeeper_paths (k : Nat) (f : Keeper → Keeper) : (s.updKeeper k f).paths = s.paths := rfl
@[simp] theorem State.updKeeper_kn (k : Nat) (f : Keeper → Keeper) : (s.updKeeper k f).kn = s.kn := rfl
@[simp] theorem State.updKeeper_mot (k : Nat) (f : Keeper → Keeper) : (s.updKeeper k f).mot = s.mot := rfl
@[simp] theorem State.updKeeper_fab (k : Nat) (f : Keeper → Keeper) : (s.updKeeper k f).fab = s.fab := rfl
@[simp] theorem State.updKeeper_cmp (k : Nat) (f : Keeper → Keeper) : (s.updKeeper k f).cmp = s.cmp := rfl
@[simp] theorem State.updKeeper_sinks (k : Nat) (f : Keeper → Keeper) : (s.updKeeper k f).sinks = s.sinks := rfl
@[simp] theorem State.updKeeper_rasters (k : Nat) (f : Keeper → Keeper) : (s.updKeeper k f).rasters = s.rasters := rfl
@[simp] theorem State.updKeeper_net (k : Nat) (f : Keeper → Keeper) : (s.updKeeper k f).net = s.net := rfl
@[simp] theorem State.updKeeper_tu (k : Nat) (f : Keeper → Keeper) : (s.updKeeper k f).tu = s.tu := rfl
@[simp] theorem State.updKeeper_irq (k : Nat) (f : Keeper → Keeper) : (s.updKeeper k f).irq = s.irq := rfl
@[simp] theorem State.updKeeper_boot (k : Nat) (f : Keeper → Keeper) : (s.updKeeper k f).boot = s.boot := rfl
@[simp] theorem State.updKeeper_tst (k : Nat) (f : Keeper → Keeper) : (s.updKeeper k f).tst = s.tst := rfl
@[simp] theorem State.updKeeper_log (k : Nat) (f : Keeper → Keeper) : (s.updKeeper k f).log = s.log := rfl
@[simp] theorem State.updKeeper_logSeq (k : Nat) (f : Keeper → Keeper) : (s.updKeeper k f).logSeq = s.logSeq := rfl
@[simp] theorem State.updKeeper_raised (k : Nat) (f : Keeper → Keeper) : (s.updKeeper k f).raised = s.raised := rfl
@[simp] theorem State.updKeeper_frameRaised (k : Nat) (f : Keeper → Keeper) : (s.updKeeper k f).frameRaised = s.frameRaised := rfl
@[simp] theorem State.updKeeper_fresh (k : Nat) (f : Keeper → Keeper) : (s.updKeeper k f).fresh = s.fresh := rfl
@[simp] theorem State.updKeeper_thermTrip (k : Nat) (f : Keeper → Keeper) : (s.updKeeper k f).thermTrip = s.thermTrip := rfl

/-! #### setEng -/

@[simp] theorem State.setEng_pending (e : EngId) (x : Engine) : (s.setEng e x).pending = s.pending := by cases e <;> rfl
@[simp] theorem State.setEng_time (e : EngId) (x : Engine) : (s.setEng e x).time = s.time := by cases e <;> rfl
@[simp] theorem State.setEng_regs (e : EngId) (x : Engine) : (s.setEng e x).regs = s.regs := by cases e <;> rfl
@[simp] theorem State.setEng_epochShadow (e : EngId) (x : Engine) : (s.setEng e x).epochShadow = s.epochShadow := by cases e <;> rfl
@[simp] theorem State.setEng_boundaryShadow (e : EngId) (x : Engine) : (s.setEng e x).boundaryShadow = s.boundaryShadow := by cases e <;> rfl
@[simp] theorem State.setEng_force (e : EngId) (x : Engine) : (s.setEng e x).force = s.force := by cases e <;> rfl
@[simp] theorem State.setEng_readData (e : EngId) (x : Engine) : (s.setEng e x).readData = s.readData := by cases e <;> rfl
@[simp] theorem State.setEng_portWords (e : EngId) (x : Engine) : (s.setEng e x).portWords = s.portWords := by cases e <;> rfl
@[simp] theorem State.setEng_portFlag (e : EngId) (x : Engine) : (s.setEng e x).portFlag = s.portFlag := by cases e <;> rfl
@[simp] theorem State.setEng_portPoison (e : EngId) (x : Engine) : (s.setEng e x).portPoison = s.portPoison := by cases e <;> rfl
@[simp] theorem State.setEng_mem (e : EngId) (x : Engine) : (s.setEng e x).mem = s.mem := by cases e <;> rfl
@[simp] theorem State.setEng_poison (e : EngId) (x : Engine) : (s.setEng e x).poison = s.poison := by cases e <;> rfl
@[simp] theorem State.setEng_flips (e : EngId) (x : Engine) : (s.setEng e x).flips = s.flips := by cases e <;> rfl
@[simp] theorem State.setEng_verified (e : EngId) (x : Engine) : (s.setEng e x).verified = s.verified := by cases e <;> rfl
@[simp] theorem State.setEng_stores (e : EngId) (x : Engine) : (s.setEng e x).stores = s.stores := by cases e <;> rfl
@[simp] theorem State.setEng_pics (e : EngId) (x : Engine) : (s.setEng e x).pics = s.pics := by cases e <;> rfl
@[simp] theorem State.setEng_paths (e : EngId) (x : Engine) : (s.setEng e x).paths = s.paths := by cases e <;> rfl
@[simp] theorem State.setEng_kn (e : EngId) (x : Engine) : (s.setEng e x).kn = s.kn := by cases e <;> rfl
@[simp] theorem State.setEng_mot (e : EngId) (x : Engine) : (s.setEng e x).mot = s.mot := by cases e <;> rfl
@[simp] theorem State.setEng_fab (e : EngId) (x : Engine) : (s.setEng e x).fab = s.fab := by cases e <;> rfl
@[simp] theorem State.setEng_cmp (e : EngId) (x : Engine) : (s.setEng e x).cmp = s.cmp := by cases e <;> rfl
@[simp] theorem State.setEng_sinks (e : EngId) (x : Engine) : (s.setEng e x).sinks = s.sinks := by cases e <;> rfl
@[simp] theorem State.setEng_rasters (e : EngId) (x : Engine) : (s.setEng e x).rasters = s.rasters := by cases e <;> rfl
@[simp] theorem State.setEng_net (e : EngId) (x : Engine) : (s.setEng e x).net = s.net := by cases e <;> rfl
@[simp] theorem State.setEng_tu (e : EngId) (x : Engine) : (s.setEng e x).tu = s.tu := by cases e <;> rfl
@[simp] theorem State.setEng_irq (e : EngId) (x : Engine) : (s.setEng e x).irq = s.irq := by cases e <;> rfl
@[simp] theorem State.setEng_boot (e : EngId) (x : Engine) : (s.setEng e x).boot = s.boot := by cases e <;> rfl
@[simp] theorem State.setEng_tst (e : EngId) (x : Engine) : (s.setEng e x).tst = s.tst := by cases e <;> rfl
@[simp] theorem State.setEng_log (e : EngId) (x : Engine) : (s.setEng e x).log = s.log := by cases e <;> rfl
@[simp] theorem State.setEng_logSeq (e : EngId) (x : Engine) : (s.setEng e x).logSeq = s.logSeq := by cases e <;> rfl
@[simp] theorem State.setEng_raised (e : EngId) (x : Engine) : (s.setEng e x).raised = s.raised := by cases e <;> rfl
@[simp] theorem State.setEng_frameRaised (e : EngId) (x : Engine) : (s.setEng e x).frameRaised = s.frameRaised := by cases e <;> rfl
@[simp] theorem State.setEng_fresh (e : EngId) (x : Engine) : (s.setEng e x).fresh = s.fresh := by cases e <;> rfl
@[simp] theorem State.setEng_thermTrip (e : EngId) (x : Engine) : (s.setEng e x).thermTrip = s.thermTrip := by cases e <;> rfl

/-! #### updEng -/

@[simp] theorem State.updEng_pending (e : EngId) (f : Engine → Engine) : (s.updEng e f).pending = s.pending := by cases e <;> rfl
@[simp] theorem State.updEng_time (e : EngId) (f : Engine → Engine) : (s.updEng e f).time = s.time := by cases e <;> rfl
@[simp] theorem State.updEng_regs (e : EngId) (f : Engine → Engine) : (s.updEng e f).regs = s.regs := by cases e <;> rfl
@[simp] theorem State.updEng_epochShadow (e : EngId) (f : Engine → Engine) : (s.updEng e f).epochShadow = s.epochShadow := by cases e <;> rfl
@[simp] theorem State.updEng_boundaryShadow (e : EngId) (f : Engine → Engine) : (s.updEng e f).boundaryShadow = s.boundaryShadow := by cases e <;> rfl
@[simp] theorem State.updEng_force (e : EngId) (f : Engine → Engine) : (s.updEng e f).force = s.force := by cases e <;> rfl
@[simp] theorem State.updEng_readData (e : EngId) (f : Engine → Engine) : (s.updEng e f).readData = s.readData := by cases e <;> rfl
@[simp] theorem State.updEng_portWords (e : EngId) (f : Engine → Engine) : (s.updEng e f).portWords = s.portWords := by cases e <;> rfl
@[simp] theorem State.updEng_portFlag (e : EngId) (f : Engine → Engine) : (s.updEng e f).portFlag = s.portFlag := by cases e <;> rfl
@[simp] theorem State.updEng_portPoison (e : EngId) (f : Engine → Engine) : (s.updEng e f).portPoison = s.portPoison := by cases e <;> rfl
@[simp] theorem State.updEng_mem (e : EngId) (f : Engine → Engine) : (s.updEng e f).mem = s.mem := by cases e <;> rfl
@[simp] theorem State.updEng_poison (e : EngId) (f : Engine → Engine) : (s.updEng e f).poison = s.poison := by cases e <;> rfl
@[simp] theorem State.updEng_flips (e : EngId) (f : Engine → Engine) : (s.updEng e f).flips = s.flips := by cases e <;> rfl
@[simp] theorem State.updEng_verified (e : EngId) (f : Engine → Engine) : (s.updEng e f).verified = s.verified := by cases e <;> rfl
@[simp] theorem State.updEng_stores (e : EngId) (f : Engine → Engine) : (s.updEng e f).stores = s.stores := by cases e <;> rfl
@[simp] theorem State.updEng_pics (e : EngId) (f : Engine → Engine) : (s.updEng e f).pics = s.pics := by cases e <;> rfl
@[simp] theorem State.updEng_paths (e : EngId) (f : Engine → Engine) : (s.updEng e f).paths = s.paths := by cases e <;> rfl
@[simp] theorem State.updEng_kn (e : EngId) (f : Engine → Engine) : (s.updEng e f).kn = s.kn := by cases e <;> rfl
@[simp] theorem State.updEng_mot (e : EngId) (f : Engine → Engine) : (s.updEng e f).mot = s.mot := by cases e <;> rfl
@[simp] theorem State.updEng_fab (e : EngId) (f : Engine → Engine) : (s.updEng e f).fab = s.fab := by cases e <;> rfl
@[simp] theorem State.updEng_cmp (e : EngId) (f : Engine → Engine) : (s.updEng e f).cmp = s.cmp := by cases e <;> rfl
@[simp] theorem State.updEng_sinks (e : EngId) (f : Engine → Engine) : (s.updEng e f).sinks = s.sinks := by cases e <;> rfl
@[simp] theorem State.updEng_rasters (e : EngId) (f : Engine → Engine) : (s.updEng e f).rasters = s.rasters := by cases e <;> rfl
@[simp] theorem State.updEng_net (e : EngId) (f : Engine → Engine) : (s.updEng e f).net = s.net := by cases e <;> rfl
@[simp] theorem State.updEng_tu (e : EngId) (f : Engine → Engine) : (s.updEng e f).tu = s.tu := by cases e <;> rfl
@[simp] theorem State.updEng_irq (e : EngId) (f : Engine → Engine) : (s.updEng e f).irq = s.irq := by cases e <;> rfl
@[simp] theorem State.updEng_boot (e : EngId) (f : Engine → Engine) : (s.updEng e f).boot = s.boot := by cases e <;> rfl
@[simp] theorem State.updEng_tst (e : EngId) (f : Engine → Engine) : (s.updEng e f).tst = s.tst := by cases e <;> rfl
@[simp] theorem State.updEng_log (e : EngId) (f : Engine → Engine) : (s.updEng e f).log = s.log := by cases e <;> rfl
@[simp] theorem State.updEng_logSeq (e : EngId) (f : Engine → Engine) : (s.updEng e f).logSeq = s.logSeq := by cases e <;> rfl
@[simp] theorem State.updEng_raised (e : EngId) (f : Engine → Engine) : (s.updEng e f).raised = s.raised := by cases e <;> rfl
@[simp] theorem State.updEng_frameRaised (e : EngId) (f : Engine → Engine) : (s.updEng e f).frameRaised = s.frameRaised := by cases e <;> rfl
@[simp] theorem State.updEng_fresh (e : EngId) (f : Engine → Engine) : (s.updEng e f).fresh = s.fresh := by cases e <;> rfl
@[simp] theorem State.updEng_thermTrip (e : EngId) (f : Engine → Engine) : (s.updEng e f).thermTrip = s.thermTrip := by cases e <;> rfl

/-! #### raise -/

@[simp] theorem State.raise_pending (f : FaultRec) : (s.raise f).pending = s.pending := rfl
@[simp] theorem State.raise_time (f : FaultRec) : (s.raise f).time = s.time := rfl
@[simp] theorem State.raise_regs (f : FaultRec) : (s.raise f).regs = s.regs := rfl
@[simp] theorem State.raise_epochShadow (f : FaultRec) : (s.raise f).epochShadow = s.epochShadow := rfl
@[simp] theorem State.raise_boundaryShadow (f : FaultRec) : (s.raise f).boundaryShadow = s.boundaryShadow := rfl
@[simp] theorem State.raise_force (f : FaultRec) : (s.raise f).force = s.force := rfl
@[simp] theorem State.raise_readData (f : FaultRec) : (s.raise f).readData = s.readData := rfl
@[simp] theorem State.raise_portWords (f : FaultRec) : (s.raise f).portWords = s.portWords := rfl
@[simp] theorem State.raise_portFlag (f : FaultRec) : (s.raise f).portFlag = s.portFlag := rfl
@[simp] theorem State.raise_portPoison (f : FaultRec) : (s.raise f).portPoison = s.portPoison := rfl
@[simp] theorem State.raise_mem (f : FaultRec) : (s.raise f).mem = s.mem := rfl
@[simp] theorem State.raise_poison (f : FaultRec) : (s.raise f).poison = s.poison := rfl
@[simp] theorem State.raise_flips (f : FaultRec) : (s.raise f).flips = s.flips := rfl
@[simp] theorem State.raise_verified (f : FaultRec) : (s.raise f).verified = s.verified := rfl
@[simp] theorem State.raise_stores (f : FaultRec) : (s.raise f).stores = s.stores := rfl
@[simp] theorem State.raise_cores (f : FaultRec) : (s.raise f).cores = s.cores := rfl
@[simp] theorem State.raise_keepers (f : FaultRec) : (s.raise f).keepers = s.keepers := rfl
@[simp] theorem State.raise_pics (f : FaultRec) : (s.raise f).pics = s.pics := rfl
@[simp] theorem State.raise_paths (f : FaultRec) : (s.raise f).paths = s.paths := rfl
@[simp] theorem State.raise_kn (f : FaultRec) : (s.raise f).kn = s.kn := rfl
@[simp] theorem State.raise_mot (f : FaultRec) : (s.raise f).mot = s.mot := rfl
@[simp] theorem State.raise_fab (f : FaultRec) : (s.raise f).fab = s.fab := rfl
@[simp] theorem State.raise_cmp (f : FaultRec) : (s.raise f).cmp = s.cmp := rfl
@[simp] theorem State.raise_sinks (f : FaultRec) : (s.raise f).sinks = s.sinks := rfl
@[simp] theorem State.raise_rasters (f : FaultRec) : (s.raise f).rasters = s.rasters := rfl
@[simp] theorem State.raise_net (f : FaultRec) : (s.raise f).net = s.net := rfl
@[simp] theorem State.raise_tu (f : FaultRec) : (s.raise f).tu = s.tu := rfl
@[simp] theorem State.raise_irq (f : FaultRec) : (s.raise f).irq = s.irq := rfl
@[simp] theorem State.raise_boot (f : FaultRec) : (s.raise f).boot = s.boot := rfl
@[simp] theorem State.raise_tst (f : FaultRec) : (s.raise f).tst = s.tst := rfl
@[simp] theorem State.raise_log (f : FaultRec) : (s.raise f).log = s.log := rfl
@[simp] theorem State.raise_logSeq (f : FaultRec) : (s.raise f).logSeq = s.logSeq := rfl
@[simp] theorem State.raise_frameRaised (f : FaultRec) : (s.raise f).frameRaised = s.frameRaised := rfl
@[simp] theorem State.raise_fresh (f : FaultRec) : (s.raise f).fresh = s.fresh := rfl
@[simp] theorem State.raise_thermTrip (f : FaultRec) : (s.raise f).thermTrip = s.thermTrip := rfl

/-! #### setByte -/

@[simp] theorem State.setByte_pending (a : Nat) (v : Byte) : (s.setByte a v).pending = s.pending := rfl
@[simp] theorem State.setByte_time (a : Nat) (v : Byte) : (s.setByte a v).time = s.time := rfl
@[simp] theorem State.setByte_regs (a : Nat) (v : Byte) : (s.setByte a v).regs = s.regs := rfl
@[simp] theorem State.setByte_epochShadow (a : Nat) (v : Byte) : (s.setByte a v).epochShadow = s.epochShadow := rfl
@[simp] theorem State.setByte_boundaryShadow (a : Nat) (v : Byte) : (s.setByte a v).boundaryShadow = s.boundaryShadow := rfl
@[simp] theorem State.setByte_force (a : Nat) (v : Byte) : (s.setByte a v).force = s.force := rfl
@[simp] theorem State.setByte_readData (a : Nat) (v : Byte) : (s.setByte a v).readData = s.readData := rfl
@[simp] theorem State.setByte_portWords (a : Nat) (v : Byte) : (s.setByte a v).portWords = s.portWords := rfl
@[simp] theorem State.setByte_portFlag (a : Nat) (v : Byte) : (s.setByte a v).portFlag = s.portFlag := rfl
@[simp] theorem State.setByte_portPoison (a : Nat) (v : Byte) : (s.setByte a v).portPoison = s.portPoison := rfl
@[simp] theorem State.setByte_poison (a : Nat) (v : Byte) : (s.setByte a v).poison = s.poison := rfl
@[simp] theorem State.setByte_flips (a : Nat) (v : Byte) : (s.setByte a v).flips = s.flips := rfl
@[simp] theorem State.setByte_verified (a : Nat) (v : Byte) : (s.setByte a v).verified = s.verified := rfl
@[simp] theorem State.setByte_stores (a : Nat) (v : Byte) : (s.setByte a v).stores = s.stores := rfl
@[simp] theorem State.setByte_cores (a : Nat) (v : Byte) : (s.setByte a v).cores = s.cores := rfl
@[simp] theorem State.setByte_keepers (a : Nat) (v : Byte) : (s.setByte a v).keepers = s.keepers := rfl
@[simp] theorem State.setByte_pics (a : Nat) (v : Byte) : (s.setByte a v).pics = s.pics := rfl
@[simp] theorem State.setByte_paths (a : Nat) (v : Byte) : (s.setByte a v).paths = s.paths := rfl
@[simp] theorem State.setByte_kn (a : Nat) (v : Byte) : (s.setByte a v).kn = s.kn := rfl
@[simp] theorem State.setByte_mot (a : Nat) (v : Byte) : (s.setByte a v).mot = s.mot := rfl
@[simp] theorem State.setByte_fab (a : Nat) (v : Byte) : (s.setByte a v).fab = s.fab := rfl
@[simp] theorem State.setByte_cmp (a : Nat) (v : Byte) : (s.setByte a v).cmp = s.cmp := rfl
@[simp] theorem State.setByte_sinks (a : Nat) (v : Byte) : (s.setByte a v).sinks = s.sinks := rfl
@[simp] theorem State.setByte_rasters (a : Nat) (v : Byte) : (s.setByte a v).rasters = s.rasters := rfl
@[simp] theorem State.setByte_net (a : Nat) (v : Byte) : (s.setByte a v).net = s.net := rfl
@[simp] theorem State.setByte_tu (a : Nat) (v : Byte) : (s.setByte a v).tu = s.tu := rfl
@[simp] theorem State.setByte_irq (a : Nat) (v : Byte) : (s.setByte a v).irq = s.irq := rfl
@[simp] theorem State.setByte_boot (a : Nat) (v : Byte) : (s.setByte a v).boot = s.boot := rfl
@[simp] theorem State.setByte_tst (a : Nat) (v : Byte) : (s.setByte a v).tst = s.tst := rfl
@[simp] theorem State.setByte_log (a : Nat) (v : Byte) : (s.setByte a v).log = s.log := rfl
@[simp] theorem State.setByte_logSeq (a : Nat) (v : Byte) : (s.setByte a v).logSeq = s.logSeq := rfl
@[simp] theorem State.setByte_raised (a : Nat) (v : Byte) : (s.setByte a v).raised = s.raised := rfl
@[simp] theorem State.setByte_frameRaised (a : Nat) (v : Byte) : (s.setByte a v).frameRaised = s.frameRaised := rfl
@[simp] theorem State.setByte_fresh (a : Nat) (v : Byte) : (s.setByte a v).fresh = s.fresh := rfl
@[simp] theorem State.setByte_thermTrip (a : Nat) (v : Byte) : (s.setByte a v).thermTrip = s.thermTrip := rfl

/-! #### setRaw -/

@[simp] theorem State.setRaw_pending (a : Nat) (v : Word) : (s.setRaw a v).pending = s.pending := by rw [State.setRaw]; simp only [State.setByte_pending]
@[simp] theorem State.setRaw_time (a : Nat) (v : Word) : (s.setRaw a v).time = s.time := by rw [State.setRaw]; simp only [State.setByte_time]
@[simp] theorem State.setRaw_regs (a : Nat) (v : Word) : (s.setRaw a v).regs = s.regs := by rw [State.setRaw]; simp only [State.setByte_regs]
@[simp] theorem State.setRaw_epochShadow (a : Nat) (v : Word) : (s.setRaw a v).epochShadow = s.epochShadow := by rw [State.setRaw]; simp only [State.setByte_epochShadow]
@[simp] theorem State.setRaw_boundaryShadow (a : Nat) (v : Word) : (s.setRaw a v).boundaryShadow = s.boundaryShadow := by rw [State.setRaw]; simp only [State.setByte_boundaryShadow]
@[simp] theorem State.setRaw_force (a : Nat) (v : Word) : (s.setRaw a v).force = s.force := by rw [State.setRaw]; simp only [State.setByte_force]
@[simp] theorem State.setRaw_readData (a : Nat) (v : Word) : (s.setRaw a v).readData = s.readData := by rw [State.setRaw]; simp only [State.setByte_readData]
@[simp] theorem State.setRaw_portWords (a : Nat) (v : Word) : (s.setRaw a v).portWords = s.portWords := by rw [State.setRaw]; simp only [State.setByte_portWords]
@[simp] theorem State.setRaw_portFlag (a : Nat) (v : Word) : (s.setRaw a v).portFlag = s.portFlag := by rw [State.setRaw]; simp only [State.setByte_portFlag]
@[simp] theorem State.setRaw_portPoison (a : Nat) (v : Word) : (s.setRaw a v).portPoison = s.portPoison := by rw [State.setRaw]; simp only [State.setByte_portPoison]
@[simp] theorem State.setRaw_poison (a : Nat) (v : Word) : (s.setRaw a v).poison = s.poison := by rw [State.setRaw]; simp only [State.setByte_poison]
@[simp] theorem State.setRaw_flips (a : Nat) (v : Word) : (s.setRaw a v).flips = s.flips := by rw [State.setRaw]; simp only [State.setByte_flips]
@[simp] theorem State.setRaw_verified (a : Nat) (v : Word) : (s.setRaw a v).verified = s.verified := by rw [State.setRaw]; simp only [State.setByte_verified]
@[simp] theorem State.setRaw_stores (a : Nat) (v : Word) : (s.setRaw a v).stores = s.stores := by rw [State.setRaw]; simp only [State.setByte_stores]
@[simp] theorem State.setRaw_cores (a : Nat) (v : Word) : (s.setRaw a v).cores = s.cores := by rw [State.setRaw]; simp only [State.setByte_cores]
@[simp] theorem State.setRaw_keepers (a : Nat) (v : Word) : (s.setRaw a v).keepers = s.keepers := by rw [State.setRaw]; simp only [State.setByte_keepers]
@[simp] theorem State.setRaw_pics (a : Nat) (v : Word) : (s.setRaw a v).pics = s.pics := by rw [State.setRaw]; simp only [State.setByte_pics]
@[simp] theorem State.setRaw_paths (a : Nat) (v : Word) : (s.setRaw a v).paths = s.paths := by rw [State.setRaw]; simp only [State.setByte_paths]
@[simp] theorem State.setRaw_kn (a : Nat) (v : Word) : (s.setRaw a v).kn = s.kn := by rw [State.setRaw]; simp only [State.setByte_kn]
@[simp] theorem State.setRaw_mot (a : Nat) (v : Word) : (s.setRaw a v).mot = s.mot := by rw [State.setRaw]; simp only [State.setByte_mot]
@[simp] theorem State.setRaw_fab (a : Nat) (v : Word) : (s.setRaw a v).fab = s.fab := by rw [State.setRaw]; simp only [State.setByte_fab]
@[simp] theorem State.setRaw_cmp (a : Nat) (v : Word) : (s.setRaw a v).cmp = s.cmp := by rw [State.setRaw]; simp only [State.setByte_cmp]
@[simp] theorem State.setRaw_sinks (a : Nat) (v : Word) : (s.setRaw a v).sinks = s.sinks := by rw [State.setRaw]; simp only [State.setByte_sinks]
@[simp] theorem State.setRaw_rasters (a : Nat) (v : Word) : (s.setRaw a v).rasters = s.rasters := by rw [State.setRaw]; simp only [State.setByte_rasters]
@[simp] theorem State.setRaw_net (a : Nat) (v : Word) : (s.setRaw a v).net = s.net := by rw [State.setRaw]; simp only [State.setByte_net]
@[simp] theorem State.setRaw_tu (a : Nat) (v : Word) : (s.setRaw a v).tu = s.tu := by rw [State.setRaw]; simp only [State.setByte_tu]
@[simp] theorem State.setRaw_irq (a : Nat) (v : Word) : (s.setRaw a v).irq = s.irq := by rw [State.setRaw]; simp only [State.setByte_irq]
@[simp] theorem State.setRaw_boot (a : Nat) (v : Word) : (s.setRaw a v).boot = s.boot := by rw [State.setRaw]; simp only [State.setByte_boot]
@[simp] theorem State.setRaw_tst (a : Nat) (v : Word) : (s.setRaw a v).tst = s.tst := by rw [State.setRaw]; simp only [State.setByte_tst]
@[simp] theorem State.setRaw_log (a : Nat) (v : Word) : (s.setRaw a v).log = s.log := by rw [State.setRaw]; simp only [State.setByte_log]
@[simp] theorem State.setRaw_logSeq (a : Nat) (v : Word) : (s.setRaw a v).logSeq = s.logSeq := by rw [State.setRaw]; simp only [State.setByte_logSeq]
@[simp] theorem State.setRaw_raised (a : Nat) (v : Word) : (s.setRaw a v).raised = s.raised := by rw [State.setRaw]; simp only [State.setByte_raised]
@[simp] theorem State.setRaw_frameRaised (a : Nat) (v : Word) : (s.setRaw a v).frameRaised = s.frameRaised := by rw [State.setRaw]; simp only [State.setByte_frameRaised]
@[simp] theorem State.setRaw_fresh (a : Nat) (v : Word) : (s.setRaw a v).fresh = s.fresh := by rw [State.setRaw]; simp only [State.setByte_fresh]
@[simp] theorem State.setRaw_thermTrip (a : Nat) (v : Word) : (s.setRaw a v).thermTrip = s.thermTrip := by rw [State.setRaw]; simp only [State.setByte_thermTrip]

/-! #### Registers -/

/-- The place of a register instance is its own (R5): no two instances share one. -/
theorem regKey_inj {r q : RegId} {i j k l : Nat} (hi : i < 256) (hj : j < 32) (hk : k < 256) (hl : l < 32)
    (h : regKey r i j = regKey q k l) : r = q ∧ i = k ∧ j = l := by
  unfold regKey at h
  have h1 : r.ctorIdx = q.ctorIdx := by omega
  have h2 : i = k := by omega
  have h3 : j = l := by omega
  exact ⟨by rw [← RegId.ofNat_ctorIdx r, h1, RegId.ofNat_ctorIdx q], h2, h3⟩

@[simp] theorem State.rd_wr_same (r : RegId) (v : Word) (i j : Nat) : (s.wr r v i j).rd r i j = v := by
  simp [State.rd, State.wr]

theorem State.rd_wr_other {r q : RegId} (v : Word) {i j k l : Nat} (h : regKey q k l ≠ regKey r i j) :
    (s.wr r v i j).rd q k l = s.rd q k l := by
  simp only [State.rd, State.wr]
  exact Sparse.look_set_other _ _ _ _ _ _ h

@[simp] theorem State.rd_of_regs {s t : State} (h : t.regs = s.regs) (r : RegId) (i j : Nat) : t.rd r i j = s.rd r i j := by
  simp [State.rd, h]

/-! #### Cores, keepers and engines -/

@[simp] theorem State.core_setCore (c : Nat) (k : Core) : (s.setCore c k).core c = k := by
  simp [State.core, State.setCore]

theorem State.core_setCore_other {c d : Nat} (k : Core) (h : d ≠ c) : (s.setCore c k).core d = s.core d := by
  simp only [State.core, State.setCore]
  exact Sparse.look_put_other _ _ _ _ _ h

@[simp] theorem State.core_updCore (c : Nat) (f : Core → Core) : (s.updCore c f).core c = f (s.core c) := by
  simp [State.updCore]

theorem State.core_updCore_other {c d : Nat} (f : Core → Core) (h : d ≠ c) : (s.updCore c f).core d = s.core d :=
  State.core_setCore_other s _ h

@[simp] theorem State.keeper_setKeeper (k : Nat) (v : Keeper) : (s.setKeeper k v).keeper k = v := by
  simp [State.keeper, State.setKeeper]

theorem State.keeper_setKeeper_other {k j : Nat} (v : Keeper) (h : j ≠ k) : (s.setKeeper k v).keeper j = s.keeper j := by
  simp only [State.keeper, State.setKeeper]
  exact Sparse.look_put_other _ _ _ _ _ h

@[simp] theorem State.keeper_updKeeper (k : Nat) (f : Keeper → Keeper) : (s.updKeeper k f).keeper k = f (s.keeper k) := by
  simp [State.updKeeper]

@[simp] theorem State.core_updKeeper (k c : Nat) (f : Keeper → Keeper) : (s.updKeeper k f).core c = s.core c := rfl

@[simp] theorem State.keeper_updCore (c k : Nat) (f : Core → Core) : (s.updCore c f).keeper k = s.keeper k := rfl

@[simp] theorem State.core_wr (r : RegId) (v : Word) (i j c : Nat) : (s.wr r v i j).core c = s.core c := rfl

@[simp] theorem State.keeper_wr (r : RegId) (v : Word) (i j k : Nat) : (s.wr r v i j).keeper k = s.keeper k := rfl

@[simp] theorem State.eng_setEng (e : EngId) (x : Engine) : (s.setEng e x).eng e = x := by
  cases e <;> simp [State.eng, State.setEng]

@[simp] theorem State.eng_updEng (e : EngId) (f : Engine → Engine) : (s.updEng e f).eng e = f (s.eng e) := by
  simp [State.updEng]

/-! #### The end of a step (R477) -/

/-- With no fault raised the end of a step changes nothing. -/
@[simp] theorem State.flush_quiet (h : s.raised = []) : s.flush = s := by
  cases s
  simp_all [State.flush, sortFaults]

/-- Logging a fault touches the log and the registers that count it. -/
@[simp] theorem State.appendFault_pending (f : FaultRec) : (s.appendFault f).pending = s.pending := by
  unfold State.appendFault; dsimp only; split <;> rfl
@[simp] theorem State.appendFault_time (f : FaultRec) : (s.appendFault f).time = s.time := by
  unfold State.appendFault; dsimp only; split <;> rfl
@[simp] theorem State.appendFault_epochShadow (f : FaultRec) : (s.appendFault f).epochShadow = s.epochShadow := by
  unfold State.appendFault; dsimp only; split <;> rfl
@[simp] theorem State.appendFault_boundaryShadow (f : FaultRec) : (s.appendFault f).boundaryShadow = s.boundaryShadow := by
  unfold State.appendFault; dsimp only; split <;> rfl
@[simp] theorem State.appendFault_force (f : FaultRec) : (s.appendFault f).force = s.force := by
  unfold State.appendFault; dsimp only; split <;> rfl
@[simp] theorem State.appendFault_readData (f : FaultRec) : (s.appendFault f).readData = s.readData := by
  unfold State.appendFault; dsimp only; split <;> rfl
@[simp] theorem State.appendFault_portWords (f : FaultRec) : (s.appendFault f).portWords = s.portWords := by
  unfold State.appendFault; dsimp only; split <;> rfl
@[simp] theorem State.appendFault_portFlag (f : FaultRec) : (s.appendFault f).portFlag = s.portFlag := by
  unfold State.appendFault; dsimp only; split <;> rfl
@[simp] theorem State.appendFault_portPoison (f : FaultRec) : (s.appendFault f).portPoison = s.portPoison := by
  unfold State.appendFault; dsimp only; split <;> rfl
@[simp] theorem State.appendFault_mem (f : FaultRec) : (s.appendFault f).mem = s.mem := by
  unfold State.appendFault; dsimp only; split <;> rfl
@[simp] theorem State.appendFault_poison (f : FaultRec) : (s.appendFault f).poison = s.poison := by
  unfold State.appendFault; dsimp only; split <;> rfl
@[simp] theorem State.appendFault_flips (f : FaultRec) : (s.appendFault f).flips = s.flips := by
  unfold State.appendFault; dsimp only; split <;> rfl
@[simp] theorem State.appendFault_verified (f : FaultRec) : (s.appendFault f).verified = s.verified := by
  unfold State.appendFault; dsimp only; split <;> rfl
@[simp] theorem State.appendFault_stores (f : FaultRec) : (s.appendFault f).stores = s.stores := by
  unfold State.appendFault; dsimp only; split <;> rfl
@[simp] theorem State.appendFault_cores (f : FaultRec) : (s.appendFault f).cores = s.cores := by
  unfold State.appendFault; dsimp only; split <;> rfl
@[simp] theorem State.appendFault_keepers (f : FaultRec) : (s.appendFault f).keepers = s.keepers := by
  unfold State.appendFault; dsimp only; split <;> rfl
@[simp] theorem State.appendFault_pics (f : FaultRec) : (s.appendFault f).pics = s.pics := by
  unfold State.appendFault; dsimp only; split <;> rfl
@[simp] theorem State.appendFault_paths (f : FaultRec) : (s.appendFault f).paths = s.paths := by
  unfold State.appendFault; dsimp only; split <;> rfl
@[simp] theorem State.appendFault_kn (f : FaultRec) : (s.appendFault f).kn = s.kn := by
  unfold State.appendFault; dsimp only; split <;> rfl
@[simp] theorem State.appendFault_mot (f : FaultRec) : (s.appendFault f).mot = s.mot := by
  unfold State.appendFault; dsimp only; split <;> rfl
@[simp] theorem State.appendFault_fab (f : FaultRec) : (s.appendFault f).fab = s.fab := by
  unfold State.appendFault; dsimp only; split <;> rfl
@[simp] theorem State.appendFault_cmp (f : FaultRec) : (s.appendFault f).cmp = s.cmp := by
  unfold State.appendFault; dsimp only; split <;> rfl
@[simp] theorem State.appendFault_sinks (f : FaultRec) : (s.appendFault f).sinks = s.sinks := by
  unfold State.appendFault; dsimp only; split <;> rfl
@[simp] theorem State.appendFault_rasters (f : FaultRec) : (s.appendFault f).rasters = s.rasters := by
  unfold State.appendFault; dsimp only; split <;> rfl
@[simp] theorem State.appendFault_net (f : FaultRec) : (s.appendFault f).net = s.net := by
  unfold State.appendFault; dsimp only; split <;> rfl
@[simp] theorem State.appendFault_tu (f : FaultRec) : (s.appendFault f).tu = s.tu := by
  unfold State.appendFault; dsimp only; split <;> rfl
@[simp] theorem State.appendFault_irq (f : FaultRec) : (s.appendFault f).irq = s.irq := by
  unfold State.appendFault; dsimp only; split <;> rfl
@[simp] theorem State.appendFault_boot (f : FaultRec) : (s.appendFault f).boot = s.boot := by
  unfold State.appendFault; dsimp only; split <;> rfl
@[simp] theorem State.appendFault_tst (f : FaultRec) : (s.appendFault f).tst = s.tst := by
  unfold State.appendFault; dsimp only; split <;> rfl
@[simp] theorem State.appendFault_raised (f : FaultRec) : (s.appendFault f).raised = s.raised := by
  unfold State.appendFault; dsimp only; split <;> rfl
@[simp] theorem State.appendFault_frameRaised (f : FaultRec) : (s.appendFault f).frameRaised = s.frameRaised := by
  unfold State.appendFault; dsimp only; split <;> rfl
@[simp] theorem State.appendFault_fresh (f : FaultRec) : (s.appendFault f).fresh = s.fresh := by
  unfold State.appendFault; dsimp only; split <;> rfl
@[simp] theorem State.appendFault_thermTrip (f : FaultRec) : (s.appendFault f).thermTrip = s.thermTrip := by
  unfold State.appendFault; dsimp only; split <;> rfl

theorem State.foldl_append {β : Type} (g : State → β) (h : ∀ s f, g (State.appendFault s f) = g s) (l : List FaultRec) :
    g (l.foldl State.appendFault s) = g s := by
  induction l generalizing s with
  | nil => rfl
  | cons f r ih => exact (ih _).trans (h s f)

@[simp] theorem State.flush_pending : s.flush.pending = s.pending :=
  (State.foldl_append _ (fun s => s.pending) (fun s f => s.appendFault_pending f) _).trans rfl
@[simp] theorem State.flush_time : s.flush.time = s.time :=
  (State.foldl_append _ (fun s => s.time) (fun s f => s.appendFault_time f) _).trans rfl
@[simp] theorem State.flush_epochShadow : s.flush.epochShadow = s.epochShadow :=
  (State.foldl_append _ (fun s => s.epochShadow) (fun s f => s.appendFault_epochShadow f) _).trans rfl
@[simp] theorem State.flush_boundaryShadow : s.flush.boundaryShadow = s.boundaryShadow :=
  (State.foldl_append _ (fun s => s.boundaryShadow) (fun s f => s.appendFault_boundaryShadow f) _).trans rfl
@[simp] theorem State.flush_force : s.flush.force = s.force :=
  (State.foldl_append _ (fun s => s.force) (fun s f => s.appendFault_force f) _).trans rfl
@[simp] theorem State.flush_readData : s.flush.readData = s.readData :=
  (State.foldl_append _ (fun s => s.readData) (fun s f => s.appendFault_readData f) _).trans rfl
@[simp] theorem State.flush_portWords : s.flush.portWords = s.portWords :=
  (State.foldl_append _ (fun s => s.portWords) (fun s f => s.appendFault_portWords f) _).trans rfl
@[simp] theorem State.flush_portFlag : s.flush.portFlag = s.portFlag :=
  (State.foldl_append _ (fun s => s.portFlag) (fun s f => s.appendFault_portFlag f) _).trans rfl
@[simp] theorem State.flush_portPoison : s.flush.portPoison = s.portPoison :=
  (State.foldl_append _ (fun s => s.portPoison) (fun s f => s.appendFault_portPoison f) _).trans rfl
@[simp] theorem State.flush_mem : s.flush.mem = s.mem :=
  (State.foldl_append _ (fun s => s.mem) (fun s f => s.appendFault_mem f) _).trans rfl
@[simp] theorem State.flush_poison : s.flush.poison = s.poison :=
  (State.foldl_append _ (fun s => s.poison) (fun s f => s.appendFault_poison f) _).trans rfl
@[simp] theorem State.flush_flips : s.flush.flips = s.flips :=
  (State.foldl_append _ (fun s => s.flips) (fun s f => s.appendFault_flips f) _).trans rfl
@[simp] theorem State.flush_verified : s.flush.verified = s.verified :=
  (State.foldl_append _ (fun s => s.verified) (fun s f => s.appendFault_verified f) _).trans rfl
@[simp] theorem State.flush_stores : s.flush.stores = s.stores :=
  (State.foldl_append _ (fun s => s.stores) (fun s f => s.appendFault_stores f) _).trans rfl
@[simp] theorem State.flush_cores : s.flush.cores = s.cores :=
  (State.foldl_append _ (fun s => s.cores) (fun s f => s.appendFault_cores f) _).trans rfl
@[simp] theorem State.flush_keepers : s.flush.keepers = s.keepers :=
  (State.foldl_append _ (fun s => s.keepers) (fun s f => s.appendFault_keepers f) _).trans rfl
@[simp] theorem State.flush_pics : s.flush.pics = s.pics :=
  (State.foldl_append _ (fun s => s.pics) (fun s f => s.appendFault_pics f) _).trans rfl
@[simp] theorem State.flush_paths : s.flush.paths = s.paths :=
  (State.foldl_append _ (fun s => s.paths) (fun s f => s.appendFault_paths f) _).trans rfl
@[simp] theorem State.flush_kn : s.flush.kn = s.kn :=
  (State.foldl_append _ (fun s => s.kn) (fun s f => s.appendFault_kn f) _).trans rfl
@[simp] theorem State.flush_mot : s.flush.mot = s.mot :=
  (State.foldl_append _ (fun s => s.mot) (fun s f => s.appendFault_mot f) _).trans rfl
@[simp] theorem State.flush_fab : s.flush.fab = s.fab :=
  (State.foldl_append _ (fun s => s.fab) (fun s f => s.appendFault_fab f) _).trans rfl
@[simp] theorem State.flush_cmp : s.flush.cmp = s.cmp :=
  (State.foldl_append _ (fun s => s.cmp) (fun s f => s.appendFault_cmp f) _).trans rfl
@[simp] theorem State.flush_sinks : s.flush.sinks = s.sinks :=
  (State.foldl_append _ (fun s => s.sinks) (fun s f => s.appendFault_sinks f) _).trans rfl
@[simp] theorem State.flush_rasters : s.flush.rasters = s.rasters :=
  (State.foldl_append _ (fun s => s.rasters) (fun s f => s.appendFault_rasters f) _).trans rfl
@[simp] theorem State.flush_net : s.flush.net = s.net :=
  (State.foldl_append _ (fun s => s.net) (fun s f => s.appendFault_net f) _).trans rfl
@[simp] theorem State.flush_tu : s.flush.tu = s.tu :=
  (State.foldl_append _ (fun s => s.tu) (fun s f => s.appendFault_tu f) _).trans rfl
@[simp] theorem State.flush_irq : s.flush.irq = s.irq :=
  (State.foldl_append _ (fun s => s.irq) (fun s f => s.appendFault_irq f) _).trans rfl
@[simp] theorem State.flush_boot : s.flush.boot = s.boot :=
  (State.foldl_append _ (fun s => s.boot) (fun s f => s.appendFault_boot f) _).trans rfl
@[simp] theorem State.flush_tst : s.flush.tst = s.tst :=
  (State.foldl_append _ (fun s => s.tst) (fun s f => s.appendFault_tst f) _).trans rfl
@[simp] theorem State.flush_frameRaised : s.flush.frameRaised = s.frameRaised :=
  (State.foldl_append _ (fun s => s.frameRaised) (fun s f => s.appendFault_frameRaised f) _).trans rfl
@[simp] theorem State.flush_fresh : s.flush.fresh = s.fresh :=
  (State.foldl_append _ (fun s => s.fresh) (fun s f => s.appendFault_fresh f) _).trans rfl
@[simp] theorem State.flush_thermTrip : s.flush.thermTrip = s.thermTrip :=
  (State.foldl_append _ (fun s => s.thermTrip) (fun s f => s.appendFault_thermTrip f) _).trans rfl

/-- Every step ends with no fault waiting to be logged (R477). -/
@[simp] theorem State.flush_raised : s.flush.raised = [] :=
  (State.foldl_append _ (fun s => s.raised) (fun s f => s.appendFault_raised f) _).trans rfl

end Sys2Proof.Machine
end

