-- ==== Sys2Proof/Laws/Memory.lean ====
section
/-! SUPPORT. The laws of memory: what a byte reads after a write, that every operation on memory keeps its canonical form, and
what the shared accesses answer and leave. -/

namespace Sys2Proof.Machine

variable (s : State)

/-! ### Bytes and words -/

@[simp] theorem State.setByte_byteAt (a : Nat) (v : Byte) : (s.setByte a v).byteAt a = v := by
  simp [State.setByte, State.byteAt]

theorem State.setByte_byteAt_other (a y : Nat) (v : Byte) (h : y ≠ a) : (s.setByte a v).byteAt y = s.byteAt y := by
  simp only [State.setByte, State.byteAt]
  exact Sparse.look_set_other _ _ _ _ _ _ h

theorem State.setByte_memoryOk (a : Nat) (v : Byte) (h : s.memoryOk) : (s.setByte a v).memoryOk :=
  ⟨Sparse.sorted_set _ _ _ _ h.1, Sparse.canonical_set s.mem a v unlisted h.2⟩

theorem State.setRaw_memoryOk (a : Nat) (v : Word) (h : s.memoryOk) : (s.setRaw a v).memoryOk := by
  unfold State.setRaw
  exact State.setByte_memoryOk _ _ _ (State.setByte_memoryOk _ _ _ (State.setByte_memoryOk _ _ _ (State.setByte_memoryOk _ _ _ h)))

theorem State.setRaw_byteAt_other (a y : Nat) (v : Word) (h : y < a ∨ a + 4 ≤ y) : (s.setRaw a v).byteAt y = s.byteAt y := by
  unfold State.setRaw
  rw [State.setByte_byteAt_other _ _ _ _ (by omega), State.setByte_byteAt_other _ _ _ _ (by omega),
    State.setByte_byteAt_other _ _ _ _ (by omega), State.setByte_byteAt_other _ _ _ _ (by omega)]

theorem State.setRaw_byteAt (a i : Nat) (v : Word) (h : i < 4) : (s.setRaw a v).byteAt (a + i) = byteOf v i := by
  unfold State.setRaw
  rcases (by omega : i = 0 ∨ i = 1 ∨ i = 2 ∨ i = 3) with rfl | rfl | rfl | rfl
  · rw [State.setByte_byteAt_other _ _ _ _ (by omega), State.setByte_byteAt_other _ _ _ _ (by omega),
      State.setByte_byteAt_other _ _ _ _ (by omega)]
    exact State.setByte_byteAt _ _ _
  · rw [State.setByte_byteAt_other _ _ _ _ (by omega), State.setByte_byteAt_other _ _ _ _ (by omega)]
    exact State.setByte_byteAt _ _ _
  · rw [State.setByte_byteAt_other _ _ _ _ (by omega)]
    exact State.setByte_byteAt _ _ _
  · exact State.setByte_byteAt _ _ _

/-- The bytes of a word put together are the word. -/
theorem byteOf_append (v : Word) : byteOf v 3 ++ byteOf v 2 ++ byteOf v 1 ++ byteOf v 0 = v := by
  unfold byteOf
  ext i hi
  simp only [BitVec.getElem_append, BitVec.getElem_extractLsb']
  split
  · simp [BitVec.getLsbD_eq_getElem hi]
  · split
    · rename_i h1 h2
      simp only [Nat.mul_one]
      rw [show 8 + (i - 8) = i by omega, BitVec.getLsbD_eq_getElem hi]
    · split
      · rw [show 8 * 2 + (i - 8 - 8) = i by omega, BitVec.getLsbD_eq_getElem hi]
      · rw [show 8 * 3 + (i - 8 - 8 - 8) = i by omega, BitVec.getLsbD_eq_getElem hi]

@[simp] theorem State.setRaw_rawWord (a : Nat) (v : Word) : (s.setRaw a v).rawWord a = v := by
  have h0 := s.setRaw_byteAt a 0 v (by omega)
  have h1 := s.setRaw_byteAt a 1 v (by omega)
  have h2 := s.setRaw_byteAt a 2 v (by omega)
  have h3 := s.setRaw_byteAt a 3 v (by omega)
  simp only [Nat.add_zero] at h0
  unfold State.rawWord
  rw [h0, h1, h2, h3]
  exact byteOf_append v

theorem State.setRaw_rawWord_other (a y : Nat) (v : Word) (h : y + 4 ≤ a ∨ a + 4 ≤ y) : (s.setRaw a v).rawWord y = s.rawWord y := by
  unfold State.rawWord
  rw [State.setRaw_byteAt_other _ _ _ _ (by omega), State.setRaw_byteAt_other _ _ _ _ (by omega),
    State.setRaw_byteAt_other _ _ _ _ (by omega), State.setRaw_byteAt_other _ _ _ _ (by omega)]

/-! ### The canonical form -/

/-- Memory that is the same list is in the same form. -/
theorem State.memoryOk_of_eq {s t : State} (e : t.mem = s.mem) (h : s.memoryOk) : t.memoryOk := by
  unfold State.memoryOk at *; rw [e]; exact h

/-- A fold of operations that keep the form keeps it. -/
theorem memoryOk_foldl {α : Type} (f : State → α → State) (hf : ∀ s x, s.memoryOk → (f s x).memoryOk) (l : List α) (s : State)
    (h : s.memoryOk) : (l.foldl f s).memoryOk := by
  induction l generalizing s with
  | nil => exact h
  | cons x r ih => exact ih _ (hf s x h)

/-- Taking entries away keeps the form. -/
theorem memoryOk_filter (p : Host.Cell → Bool) (m : List Host.Cell) (h : Memory.wf m) : Memory.wf (m.filter p) :=
  ⟨List.Pairwise.filter _ h.1, fun c hc => h.2 c (List.mem_filter.1 hc).1⟩

@[simp] theorem State.unverify_mem (a : Nat) : (s.unverify a).mem = s.mem := by
  unfold State.unverify; split <;> rfl

@[simp] theorem State.injectWrite_mem (a : Nat) : (s.injectWrite a).mem = s.mem := by
  unfold State.injectWrite
  split
  · split
    · split <;> rfl
    · rfl
  · rfl

theorem State.wakeWatches_memoryOk (st a : Nat) (h : s.memoryOk) : (s.wakeWatches st a).memoryOk := by
  unfold State.wakeWatches
  simp only
  split
  · exact h
  · generalize runWatches _ _ _ _ = r
    have g := State.setRaw_memoryOk s a r.2.2 h
    generalize s.setRaw a r.2.2 = u at g ⊢
    exact State.memoryOk_of_eq (s := u) rfl g

theorem State.putStored_memoryOk (a : Nat) (v : Word) (p : Bool) (h : s.memoryOk) : (s.putStored a v p).memoryOk := by
  unfold State.putStored
  split
  · have g := State.setRaw_memoryOk s a v h
    simp only
    generalize s.setRaw a v = u at g ⊢
    exact State.wakeWatches_memoryOk _ _ _ (State.memoryOk_of_eq (State.unverify_mem _ _)
      (State.memoryOk_of_eq (State.injectWrite_mem _ _) (State.memoryOk_of_eq (s := u) rfl g)))
  · exact State.setRaw_memoryOk s a v h

theorem State.drainLate_memoryOk (a : Nat) (h : s.memoryOk) : (s.drainLate a).memoryOk := by
  unfold State.drainLate
  simp only
  split
  · exact h
  · refine memoryOk_foldl _ (fun s x hs => ?_) _ _ (State.memoryOk_of_eq rfl h)
    split
    · exact hs
    · exact State.putStored_memoryOk _ _ _ _ hs

theorem State.putWord_memoryOk (a : Nat) (v : Word) (p : Bool) (h : s.memoryOk) : (s.putWord a v p).memoryOk :=
  State.drainLate_memoryOk _ _ (State.putStored_memoryOk _ _ _ _ h)

theorem State.putWords_memoryOk (a : Nat) (p : Bool) (l : List Word) (h : s.memoryOk) : (s.putWords a p l).memoryOk := by
  induction l generalizing s a with
  | nil => exact h
  | cons w r ih => exact ih _ _ (State.putWord_memoryOk _ _ _ _ h)

@[simp] theorem State.noteCorrected_mem (st src a : Nat) : (s.noteCorrected st src a).mem = s.mem := by
  unfold State.noteCorrected
  simp only
  split <;> split <;> rfl

@[simp] theorem State.noteUncorrected_mem (st src a : Nat) : (s.noteUncorrected st src a).mem = s.mem := by
  unfold State.noteUncorrected
  simp only
  split <;> rfl

theorem State.writeBack_memoryOk (a : Nat) (v : Word) (p : Bool) (h : s.memoryOk) : (s.writeBack a v p).memoryOk :=
  State.memoryOk_of_eq (s := s.setRaw a v) rfl (State.setRaw_memoryOk s a v h)

theorem State.getWord_memoryOk (src a : Nat) (h : s.memoryOk) : (s.getWord src a).2.memoryOk := by
  unfold State.getWord
  split
  · exact h
  · simp only
    split
    · exact h
    · split
      · exact State.memoryOk_of_eq (State.noteCorrected_mem _ _ _ _) h
      · split
        · exact State.memoryOk_of_eq (State.noteUncorrected_mem _ _ _ _) (State.putStored_memoryOk _ _ _ _ h)
        · split
          · exact h
          · exact State.memoryOk_of_eq (State.noteCorrected_mem _ _ _ _) (State.writeBack_memoryOk _ _ _ _ h)

theorem State.getWords_memoryOk (src a n : Nat) (h : s.memoryOk) : (s.getWords src a n).2.memoryOk := by
  induction n generalizing s a with
  | zero => exact h
  | succ n ih => exact ih _ _ (State.getWord_memoryOk _ _ _ h)

theorem State.getBytes_memoryOk (src a n : Nat) (h : s.memoryOk) : (s.getBytes src a n).2.memoryOk :=
  State.getWords_memoryOk _ _ _ _ h

theorem State.putEnabled_memoryOk (src a : Nat) (v : Word) (en : BitVec 4) (p : Bool) (h : s.memoryOk) :
    (s.putEnabled src a v en p).memoryOk := by
  unfold State.putEnabled
  split
  · exact h
  · split
    · exact State.putWord_memoryOk _ _ _ _ h
    · exact State.putWord_memoryOk _ _ _ _ (State.getWord_memoryOk _ _ _ h)

theorem State.putBytes_memoryOk (src a : Nat) (p : Bool) (d : List Byte) (h : s.memoryOk) : (s.putBytes src a p d).memoryOk := by
  unfold State.putBytes
  simp only
  split
  · exact h
  · exact memoryOk_foldl _ (fun s x hs => State.putEnabled_memoryOk _ _ _ _ _ _ hs) _ _ h

theorem State.msPerform_memoryOk (src a : Nat) (op : MsOp) (h : s.memoryOk) : (s.msPerform src a op).2.memoryOk := by
  have g := State.getWord_memoryOk s src a h
  unfold State.msPerform
  simp only
  split
  · exact g
  · split
    · simp only
      split
      · exact State.putWord_memoryOk _ _ _ _ g
      · exact g
    · exact State.putWord_memoryOk _ _ _ _ g
    · simp only
      split
      · exact State.putWord_memoryOk _ _ _ _ g
      · exact g

@[simp] theorem State.park_mem (w : Watch) : (s.park w).2.mem = s.mem := by
  unfold State.park
  split
  · rfl
  · simp only
    split <;> rfl

theorem State.msBlocking_memoryOk (src : Nat) (w : Watch) (h : s.memoryOk) : (s.msBlocking src w).2.memoryOk := by
  have g := State.msPerform_memoryOk s src w.addr (.compare w.cond w.a w.delta) h
  unfold State.msBlocking
  simp only
  split
  · exact g
  · exact State.memoryOk_of_eq (State.park_mem _ _) g

@[simp] theorem State.dropWatches_mem (p : EngId → Bool) : (s.dropWatches p).mem = s.mem := rfl

@[simp] theorem State.turnWheel_mem (store port octet : Nat) : (s.turnWheel store port octet).mem = s.mem := rfl

/-! ### Ports (R71, R74, R75) -/

theorem State.portAccess_memoryOk (st port a : Nat) (op : PortOp) (h : s.memoryOk) : (s.portAccess st port a op).memoryOk := by
  unfold State.portAccess
  split
  · exact h
  · have g : (s.turnWheel st port (octetOf st a)).memoryOk := State.memoryOk_of_eq rfl h
    simp only
    split
    · exact State.memoryOk_of_eq rfl (State.getWords_memoryOk _ port a _ g)
    · exact memoryOk_foldl _ (fun s x hs => State.putEnabled_memoryOk _ _ _ _ _ _ hs) _ _ (State.memoryOk_of_eq rfl g)
    all_goals exact State.memoryOk_of_eq rfl (State.msPerform_memoryOk _ port a _ g)

@[simp] theorem State.enterSys_mem (st : Nat) (r : SysAccess) : (s.enterSys st r).mem = s.mem := rfl
@[simp] theorem State.leaveSys_mem (st : Nat) (r : SysAccess) : (s.leaveSys st r).mem = s.mem := rfl

theorem State.serveSys_memoryOk (st : Nat) (h : s.memoryOk) : (s.serveSys st).memoryOk := by
  unfold State.serveSys
  split
  · exact h
  · simp only
    split
    · exact State.portAccess_memoryOk _ _ _ _ _ (State.memoryOk_of_eq rfl h)
    · exact State.memoryOk_of_eq rfl h

theorem State.serveUntil_memoryOk (st n : Nat) (h : s.memoryOk) : (s.serveUntil st n).memoryOk := by
  induction n generalizing s with
  | zero => exact h
  | succ n ih =>
    unfold State.serveUntil
    split
    · split
      · exact State.memoryOk_of_eq rfl h
      · exact ih _ (State.serveSys_memoryOk _ _ h)
    · exact h

theorem State.sysTurn_memoryOk (st cls m : Nat) (h : s.memoryOk) : (s.sysTurn st cls m).memoryOk :=
  State.serveUntil_memoryOk _ _ _ (State.memoryOk_of_eq rfl h)

theorem State.drainBridge_memoryOk (h : s.memoryOk) : s.drainBridge.memoryOk := by
  unfold State.drainBridge
  refine memoryOk_foldl _ (fun s r hs => ?_) _ _ (State.memoryOk_of_eq rfl h)
  split
  · exact State.portAccess_memoryOk _ _ _ _ _ hs
  · exact hs

theorem State.before_memoryOk (who : Requester) (st : Nat) (h : s.memoryOk) : (s.before who st).memoryOk := by
  unfold State.before
  split
  · exact State.drainBridge_memoryOk _ h
  · split
    · exact State.sysTurn_memoryOk _ _ _ _ h
    · exact h

theorem State.turnFor_memoryOk (who : Requester) (a : Nat) (h : s.memoryOk) : (s.turnFor who a).memoryOk := by
  unfold State.turnFor
  split
  · exact h
  · exact State.memoryOk_of_eq (State.turnWheel_mem _ _ _ _) (State.before_memoryOk _ _ _ h)

theorem State.turnSpan_memoryOk (who : Requester) (a n : Nat) (h : s.memoryOk) : (s.turnSpan who a n).memoryOk := by
  unfold State.turnSpan
  split
  · exact h
  · exact memoryOk_foldl _ (fun s x hs => State.turnFor_memoryOk _ _ _ hs) _ _ h

theorem State.portServe_memoryOk (st port a : Nat) (op : PortOp) (h : s.memoryOk) : (s.portServe st port a op).memoryOk := by
  unfold State.portServe
  split
  · exact State.portAccess_memoryOk _ _ _ _ _ (State.before_memoryOk _ _ _ h)
  · exact h

theorem State.requestSys_mem (st : Nat) (r : SysAccess) : (s.requestSys st r).mem = s.mem := by
  unfold State.requestSys
  split
  · rfl
  · split <;> rfl

theorem State.serveNext_memoryOk (st : Nat) (h : s.memoryOk) : (s.serveNext st).memoryOk := by
  unfold State.serveNext
  split
  · exact h
  · split
    · exact State.serveSys_memoryOk _ _ h
    · split
      · exact h
      · simp only
        split
        · exact State.portAccess_memoryOk _ _ _ _ _ (State.memoryOk_of_eq rfl h)
        · exact State.memoryOk_of_eq rfl h

/-- Nothing waits at a system port to which an access comes alone: the turn of a class is recorded, and nothing else changes. -/
theorem State.sysTurn_alone (st cls m : Nat) (hc : cls < 5) (h0 : s.stores.slots = []) (h1 : s.stores.waits = []) :
    s.sysTurn st cls m = { s with stores := { s.stores with
      lastClass := s.stores.lastClass.put st cls, lastMember := s.stores.lastMember.put (slotKey st cls) m } } := by
  obtain ⟨i, hi, e⟩ : ∃ i < 5, (s.stores.lastClass.look st 4 + 1 + i) % 5 = cls := by
    refine ⟨(cls + 4 - s.stores.lastClass.look st 4 % 5) % 5, by omega, by omega⟩
  have uniq : ∀ j < 5, (s.stores.lastClass.look st 4 + 1 + j) % 5 = cls ↔ j = i := by intro j hj; omega
  have key : ∀ j, slotKey st ((s.stores.lastClass.look st 4 + 1 + j) % 5) = slotKey st cls ↔ (s.stores.lastClass.look st 4 + 1 + j) % 5 = cls := by
    intro j; unfold slotKey; omega
  have next : (s.enterSys st { cls := cls, member := m, addr := 0, op := none }).nextSys st =
      some { cls := cls, member := m, addr := 0, op := none } := by
    simp only [State.nextSys, State.enterSys, h0, Sparse.has, List.any_nil, Bool.false_eq_true, if_false, Sparse.put, List.find?_cons, List.find?_nil]
    have hf : ∀ j, ((slotKey st cls == slotKey st ((s.stores.lastClass.look st 4 + 1 + j) % 5)) = true) ↔ (s.stores.lastClass.look st 4 + 1 + j) % 5 = cls := by
      intro j; rw [beq_iff_eq, eq_comm, key]
    have h5 : List.range 5 = [0, 1, 2, 3, 4] := rfl
    rw [h5]
    have cases5 : i = 0 ∨ i = 1 ∨ i = 2 ∨ i = 3 ∨ i = 4 := by omega
    have b : ∀ j < 5, (slotKey st cls == slotKey st ((s.stores.lastClass.look st 4 + 1 + j) % 5)) = decide (j = i) := by
      intro j hj
      have := (hf j).trans (uniq j hj)
      cases hb : (slotKey st cls == slotKey st ((s.stores.lastClass.look st 4 + 1 + j) % 5)) <;> simp_all
    simp only [List.findSome?_cons, b 0 (by omega), b 1 (by omega), b 2 (by omega), b 3 (by omega), b 4 (by omega)]
    rcases cases5 with rfl | rfl | rfl | rfl | rfl <;> simp
  unfold State.sysTurn
  simp only
  have len : (s.enterSys st { cls := cls, member := m, addr := 0, op := none }).stores.slots.length +
      (s.enterSys st { cls := cls, member := m, addr := 0, op := none }).stores.waits.length = 1 := by
    simp [State.enterSys, h0, h1, Sparse.has, Sparse.put]
  rw [len]
  simp only [State.serveUntil, next, Option.isNone_none, if_true]
  simp [State.leaveSys, State.enterSys, h0, h1, Sparse.has, Sparse.put, Sparse.del, nextMember]

theorem State.zeroRange_memoryOk (lo n : Nat) (h : s.memoryOk) : (s.zeroRange lo n).memoryOk :=
  memoryOk_filter _ s.mem h

/-- The stores' operation of leaving ACTIVE keeps the form where completing the waiting accesses does. -/
theorem State.moveBand_memoryOk (st b t : Nat) (hc : (s.completeWaiting st b).memoryOk) (h : s.memoryOk) : (s.moveBand st b t).memoryOk := by
  unfold State.moveBand
  generalize s.completeWaiting st b = u at hc
  refine State.memoryOk_of_eq rfl ?_
  simp only
  split
  · refine State.zeroRange_memoryOk _ _ _ ?_
    split
    · refine State.memoryOk_of_eq rfl ?_
      split
      · exact hc
      · exact h
    · split
      · exact hc
      · exact h
  · split
    · refine State.memoryOk_of_eq rfl ?_
      split
      · exact hc
      · exact h
    · split
      · exact hc
      · exact h

theorem State.startBands_mem (st : Nat) : (s.startBands st).mem = s.mem := by
  unfold State.startBands
  generalize List.range 8 = l
  induction l generalizing s with
  | nil => rfl
  | cons b r ih =>
    simp only [List.foldl_cons]
    rw [ih]
    split <;> rfl

theorem State.finishBand_memoryOk (st b : Nat) (hc : ∀ u : State, u.memoryOk → (u.completeWaiting st b).memoryOk) (h : s.memoryOk) :
    (s.finishBand st b).memoryOk := by
  unfold State.finishBand
  split
  · exact h
  · refine State.memoryOk_of_eq (State.startBands_mem _ _) ?_
    have g : State.memoryOk { s with stores := { s.stores with bandMoves := s.stores.bandMoves.del (st * 8 + b) } } := State.memoryOk_of_eq rfl h
    simp only
    split
    · exact State.memoryOk_of_eq rfl (State.moveBand_memoryOk _ _ _ _ (hc _ g) g)
    · exact State.memoryOk_of_eq rfl (State.moveBand_memoryOk _ _ _ _ (hc _ g) g)

theorem State.changeFlash_memoryOk (a n : Nat) (f : Nat → Byte → Byte) (h : s.memoryOk) : (s.changeFlash a n f).memoryOk := by
  unfold State.changeFlash
  refine memoryOk_foldl _ (fun s x hs => ?_) _ _ h
  simp only
  split
  · exact State.setByte_memoryOk _ _ _ hs
  · exact hs

/-! ### What a step's end leaves -/

/-- Where no fault was raised, the end of a step changes nothing. -/
theorem State.flush_of_quiet (h : Quiet s) : s.flush = s := by
  cases s
  simp only [Quiet] at h
  subst h
  rfl

/-! ### Accesses of words without stored-bit errors -/

theorem State.getWord_clean (src a : Nat) (h : s.flips.look a 0 = 0) (hp : s.poison.look a false = false) :
    s.getWord src a = ((s.rawWord a, false), s) := by
  unfold State.getWord
  split
  · rfl
  · simp only
    rw [if_pos h, hp]

/-- Reading words of which none is poisoned or in error answers what they hold and changes nothing. -/
theorem State.getWords_clean (src a n : Nat) (h : ∀ i < n, s.flips.look (a + 4 * i) 0 = 0 ∧ s.poison.look (a + 4 * i) false = false) :
    s.getWords src a n = (((List.range n).map (fun i => s.rawWord (a + 4 * i)), false), s) := by
  induction n generalizing a with
  | zero => rfl
  | succ n ih =>
    have h0 := h 0 (by omega)
    have hr := ih (a + 4) (fun i hi => by
      have := h (i + 1) (by omega)
      rw [show a + 4 + 4 * i = a + 4 * (i + 1) by omega]
      exact this)
    simp only [Nat.mul_zero, Nat.add_zero] at h0
    unfold State.getWords
    rw [State.getWord_clean s src a h0.1 h0.2]
    simp only
    rw [hr]
    simp only [Bool.or_self, List.range_succ_eq_map, List.map_cons, List.map_map, Nat.mul_zero, Nat.add_zero]
    congr 4
    funext i
    simp only [Function.comp]
    rw [show a + 4 + 4 * i = a + 4 * (i + 1) by omega]

/-- A write of one word that nothing waits on: the word is what is written, in a store with its poison and free of stored-bit errors,
and every byte outside it reads as before. -/
theorem State.putStored_byteAt_other (a y : Nat) (v : Word) (p : Bool) (h : y < a ∨ a + 4 ≤ y) :
    (s.putStored a v p).byteAt y = s.byteAt y := by
  have wake : ∀ (u : State) (st : Nat), (u.wakeWatches st a).byteAt y = u.byteAt y := by
    intro u st
    unfold State.wakeWatches
    simp only
    split
    · rfl
    · generalize runWatches _ _ _ _ = r
      have g := State.setRaw_byteAt_other u a y r.2.2 h
      rw [← g]
      generalize u.setRaw a r.2.2 = w
      rfl
  unfold State.putStored
  split
  · have g := State.setRaw_byteAt_other s a y v h
    simp only
    rw [wake, ← g]
    generalize s.setRaw a v = u
    simp only [State.byteAt, State.unverify_mem, State.injectWrite_mem]
  · exact State.setRaw_byteAt_other s a y v h

theorem State.drainLate_none (a : Nat) (h : ∀ l ∈ s.stores.late, l.fillAddr ≠ a) : s.drainLate a = s := by
  have : s.stores.late.filter (fun l => l.fillAddr == a && condHolds 4 (s.rawWord a) l.need) = [] := by
    rw [List.filter_eq_nil_iff]
    intro l hl
    simp [h l hl]
  unfold State.drainLate
  simp only [this]

end Sys2Proof.Machine
end

