-- ==== Sys2Proof/Laws/Engine.lean ====
section
/-! SUPPORT. The laws of the operations that instructions share: how an instruction is taken, how an engine goes on, how one faults,
what the requests to a core leave of memory, and what a memory-side operation answers. -/

namespace Sys2Proof.Machine

variable (s : State)

/-! ### Taking an instruction -/

/-- An instruction that starts is performed. -/
theorem runInstr_starts {w : Allow} {ok : KBits → Bool} {body : EngId → KBits → State → State} {e : EngId} {b : KBits}
    (h : Starts w s e b (ok b)) : runInstr w ok body e b s = body e b s := by
  obtain ⟨_, h1, h2, h3, h4, h5⟩ := h
  simp [runInstr, h1, h2, h3, h4, h5]

/-- An engine that cannot take an instruction takes none. -/
theorem runInstr_idle {w : Allow} {ok : KBits → Bool} {body : EngId → KBits → State → State} {e : EngId} {b : KBits}
    (h : s.ready e = false) : runInstr w ok body e b s = s := by
  simp [runInstr, h]

/-- An instruction of the other engine is passed over. -/
theorem runInstr_passed {w : Allow} {ok : KBits → Bool} {body : EngId → KBits → State → State} {e : EngId} {b : KBits}
    (h : s.ready e = true) (ht : takes e b.engine = false) : runInstr w ok body e b s = s.retire e := by
  simp [runInstr, h, ht]

/-- An instruction whose format does not allow its fields or its ENGINE faults. -/
theorem runInstr_illegal {w : Allow} {ok : KBits → Bool} {body : EngId → KBits → State → State} {e : EngId} {b : KBits}
    (h : s.ready e = true) (ht : takes e b.engine = true) (hf : (w.ok e b.engine && ok b) = false) :
    runInstr w ok body e b s = s.instrFault e codeIllegal := by
  simp [runInstr, h, ht, hf]

/-- An instruction whose guard is false completes without effect. -/
theorem runInstr_guarded {w : Allow} {ok : KBits → Bool} {body : EngId → KBits → State → State} {e : EngId} {b : KBits}
    (h : s.ready e = true) (ht : takes e b.engine = true) (hf : (w.ok e b.engine && ok b) = true) (hg : (s.eng e).guard b = false) :
    runInstr w ok body e b s = s.retire e := by
  simp [runInstr, h, ht, hf, hg]

/-! ### Going on -/

/-- An engine that no loop holds goes on to the next instruction. -/
theorem Engine.complete_straight (x : Engine) (h : ∀ l ∈ x.loops.head?, l.last ≠ x.pc) : (x.complete x.pc).pc = x.pc + 1 := by
  unfold Engine.complete
  cases hl : x.loops with
  | nil => rfl
  | cons l r =>
    have : l.last ≠ x.pc := h l (by rw [hl]; exact rfl)
    simp [loopEnd, this]

/-- Completing an instruction clears what the engine waited for. -/
@[simp] theorem Engine.complete_wait (x : Engine) (p : Nat) : (x.complete p).wait = .none := rfl
@[simp] theorem Engine.complete_s (x : Engine) (p : Nat) : (x.complete p).s = x.s := rfl
@[simp] theorem Engine.complete_a (x : Engine) (p : Nat) : (x.complete p).a = x.a := rfl
@[simp] theorem Engine.complete_p (x : Engine) (p : Nat) : (x.complete p).p = x.p := rfl
@[simp] theorem Engine.complete_d (x : Engine) (p : Nat) : (x.complete p).d = x.d := rfl

/-! ### What leaves memory as it is -/

@[simp] theorem State.emptyCore_mem (c : Nat) : (s.emptyCore c).mem = s.mem := rfl

@[simp] theorem State.faultCore_mem (c n : Nat) : (s.faultCore c n).mem = s.mem := rfl

theorem State.faultKeeper_mem (k code pc : Nat) : (s.faultKeeper k code pc).mem = s.mem := by
  unfold State.faultKeeper
  simp only
  generalize List.range 4 = l
  have fold : ∀ (u : State), (l.foldl (fun s j => if j ≠ k ∧ (s.keeper j).state = 1 then s.setBit F.KEP_PEVT_PEER_FAULT 0 j else s) u).mem = u.mem := by
    induction l with
    | nil => exact fun _ => rfl
    | cons j r ih =>
      intro u
      simp only [List.foldl_cons]
      rw [ih]
      split <;> rfl
  rw [fold]
  split <;> rfl

@[simp] theorem State.instrFaultAt_mem (e : EngId) (pc code : Nat) (d0 d1 d2 : Word) :
    (s.instrFaultAt e pc code d0 d1 d2).mem = s.mem := by
  unfold State.instrFaultAt
  cases e with
  | keeper k => exact State.faultKeeper_mem s _ _ _
  | fetch c =>
    have g : ∀ u : State, ((u.faultCore c 4).raise { code := code, cls := 0, unit := c, d0 := d0, d1 := d1, d2 := d2 }).mem = u.mem :=
      fun _ => rfl
    simp only
    rw [g]
    split <;> rfl
  | execute c =>
    have g : ∀ u : State, ((u.faultCore c 4).raise { code := code, cls := 0, unit := c, d0 := d0, d1 := d1, d2 := d2 }).mem = u.mem :=
      fun _ => rfl
    simp only
    rw [g]
    split <;> rfl

@[simp] theorem State.instrFault_mem (e : EngId) (code : Nat) : (s.instrFault e code).mem = s.mem := State.instrFaultAt_mem _ _ _ _ _ _ _

@[simp] theorem State.addrFault_mem (e : EngId) (a : Nat) : (s.addrFault e a).mem = s.mem := State.instrFaultAt_mem _ _ _ _ _ _ _

@[simp] theorem State.poisonFault_mem (e : EngId) : (s.poisonFault e).mem = s.mem := State.instrFaultAt_mem _ _ _ _ _ _ _

@[simp] theorem State.completeAt_mem (e : EngId) (p : Nat) : (s.completeAt e p).mem = s.mem := by
  unfold State.completeAt
  simp only
  split
  · rw [State.instrFaultAt_mem, State.updEng_mem]
  · exact State.updEng_mem _ _ _

@[simp] theorem State.retire_mem (e : EngId) : (s.retire e).mem = s.mem := State.completeAt_mem _ _ _

@[simp] theorem State.settleHalt_mem (c : Nat) : (s.settleHalt c).mem = s.mem := by
  unfold State.settleHalt; simp only; split <;> rfl

@[simp] theorem State.haltCore_mem (c : Nat) : (s.haltCore c).mem = s.mem := by
  unfold State.haltCore
  split
  · rw [State.settleHalt_mem]; rfl
  · rfl

@[simp] theorem State.startCore_mem (c : Nat) : (s.startCore c).mem = s.mem := by
  unfold State.startCore
  simp only
  split
  · rfl
  · split <;> rfl

@[simp] theorem State.noteVlow_mem : s.noteVlow.mem = s.mem := by
  unfold State.noteVlow
  simp only
  split <;> rfl

/-- Steps that each leave memory leave it together. -/
theorem State.foldl_mem {α : Type} (f : State → α → State) (h : ∀ t x, (f t x).mem = t.mem) (l : List α) (s : State) :
    (l.foldl f s).mem = s.mem := by
  induction l generalizing s with
  | nil => rfl
  | cons x r ih => rw [List.foldl_cons, ih, h]

@[simp] theorem State.auditOver_mem : s.auditOver.mem = s.mem := by
  unfold State.auditOver
  split
  · rfl
  · refine State.foldl_mem _ (fun t d => ?_) _ s
    dsimp only
    repeat' split
    all_goals rfl

@[simp] theorem State.endAudit_mem (c : Nat) : (s.endAudit c).mem = s.mem := by
  unfold State.endAudit
  split
  · rfl
  · simp only
    split
    · rw [State.setFld_mem, State.auditOver_mem, State.noteVlow_mem]; rfl
    · rw [State.setFld_mem, State.auditOver_mem]

@[simp] theorem State.stopCore_mem (c : Nat) : (s.stopCore c).mem = s.mem := by
  unfold State.stopCore
  simp only
  split
  · rw [State.faultCore_mem, State.endAudit_mem]
  · exact State.endAudit_mem _ _

/-- An instruction keeps the memory's form where its own body does. -/
theorem runInstr_memoryOk {w : Allow} {ok : KBits → Bool} {body : EngId → KBits → State → State} {e : EngId} {b : KBits}
    (hb : (body e b s).memoryOk) (h : s.memoryOk) : (runInstr w ok body e b s).memoryOk := by
  unfold runInstr
  split
  · exact h
  · split
    · exact State.memoryOk_of_eq (State.retire_mem _ _) h
    · split
      · exact State.memoryOk_of_eq (State.instrFault_mem _ _ _) h
      · split
        · exact State.memoryOk_of_eq (State.retire_mem _ _) h
        · exact hb

/-! ### Memory-side operations -/

/-- A memory-side operation on a word that is neither poisoned nor in error: what it answers and what it writes (R77). -/
theorem State.msPerform_clean (src a : Nat) (op : MsOp) (h : s.flips.look a 0 = 0) (hp : s.poison.look a false = false) :
    s.msPerform src a op = match op with
      | .compare cond x d => ({ old := s.rawWord a, flag := condHolds cond (s.rawWord a) x, poison := false },
          if condHolds cond (s.rawWord a) x ∧ d ≠ 0 then s.putWord a (s.rawWord a + d.signExtend 32) else s)
      | .add x => ({ old := s.rawWord a, flag := true, poison := false }, s.putWord a (s.rawWord a + x))
      | .swap x n => ({ old := s.rawWord a, flag := s.rawWord a == x, poison := false },
          if s.rawWord a = x then s.putWord a n else s) := by
  unfold State.msPerform
  rw [State.getWord_clean s src a h hp]
  cases op <;> simp

end Sys2Proof.Machine
end

