-- ==== Sys2Proof/Laws/Ports.lean ====
section
/-! SUPPORT. What an access of a requester does to the stores where nothing waits before it: its turn comes at once, and only the
stores' own counters of turns and wheels change (R70, R74, R75). -/

namespace Sys2Proof

namespace Sparse

variable {α : Type}

theorem has_cons (c : Nat × α) (r : Sparse α) (k : Nat) (h : Sparse.has (c :: r) k = false) : ¬c.1 = k ∧ Sparse.has r k = false := by
  simpa [has] using h

theorem find_of_not_has (m : Sparse α) (k : Nat) (h : m.has k = false) : m.find? (fun c => c.1 == k) = none :=
  List.find?_eq_none.mpr fun x hx => List.any_eq_false.mp h x hx

theorem del_of_not_has (m : Sparse α) (k : Nat) (h : m.has k = false) : del m k = m :=
  List.filter_eq_self.mpr fun x hx => by simpa using List.any_eq_false.mp h x hx

theorem del_put (m : Sparse α) (k : Nat) (v : α) (h : m.has k = false) : del (put m k v) k = m := by
  induction m with
  | nil => simp [put, del]
  | cons c r ih =>
    obtain ⟨h1, h2⟩ := has_cons c r k h
    have hk : del ((k, v) :: c :: r) k = del (c :: r) k := by simp [del]
    by_cases hlt : c.1 < k
    · have : put (c :: r) k v = c :: put r k v := by simp [put, hlt]
      rw [this]
      have : del (c :: put r k v) k = c :: del (put r k v) k := by simp [del, h1]
      rw [this, ih h2]
    · have : put (c :: r) k v = (k, v) :: c :: r := by simp [put, hlt, h1]
      rw [this, hk, del_of_not_has _ _ h]

theorem find_put (m : Sparse α) (k j : Nat) (v : α) (h : m.has j = false) :
    (put m k v).find? (fun c => c.1 == j) = if k = j then some (k, v) else none := by
  induction m with
  | nil => by_cases e : k = j <;> simp [put, e]
  | cons c r ih =>
    obtain ⟨h1, h2⟩ := has_cons c r j h
    have hn := find_of_not_has r j h2
    have := ih h2
    unfold put
    by_cases hlt : c.1 < k
    · simp [hlt, h1, this]
    · by_cases hk : c.1 = k
      · have e : ¬k = j := fun e => h1 (hk.trans e)
        simp [hk, e, hn]
      · rw [if_neg hlt, if_neg hk]
        by_cases e : k = j <;> simp [e, h1, hn]

end Sparse

namespace Machine

theorem findSome_const {α β : Type} (f : α → Option β) (r : β) (l : List α) (h : ∀ x ∈ l, f x = none ∨ f x = some r)
    (e : ∃ x ∈ l, f x = some r) : l.findSome? f = some r := by
  induction l with
  | nil => simp at e
  | cons x l ih =>
    rcases h x (by simp) with h1 | h1
    · rw [List.findSome?_cons, h1]
      obtain ⟨y, hy, e⟩ := e
      rcases List.mem_cons.mp hy with rfl | hy
      · rw [h1] at e; cases e
      · exact ih (fun z hz => h z (by simp [hz])) ⟨y, hy, e⟩
    · rw [List.findSome?_cons, h1]

variable (s : State)

/-- Nothing waits at the system port of a store, nor at the fabric bridge. -/
def State.free (st : Nat) : Prop :=
  (∀ c < 5, s.stores.slots.has (slotKey st c) = false) ∧ s.stores.waits = [] ∧ s.stores.bridge = []

theorem State.free_of_portFree (a st : Nat) (h : s.portFree a = true) (ha : storeOf a = some st) : s.free st := by
  unfold State.portFree at h
  simp only [ha, Bool.and_eq_true, List.isEmpty_iff] at h
  exact ⟨fun c hc => by simpa using List.all_eq_true.mp h.1.1 c (List.mem_range.mpr hc), h.1.2, h.2⟩

/-- Where nothing waits at a system port, the turn of an access comes at once (R74). -/
theorem State.sysTurn_free (st cls m : Nat) (h : s.free st) (hc : cls < 5) :
    s.sysTurn st cls m = { s with stores :=
      { s.stores with lastClass := s.stores.lastClass.put st cls, lastMember := s.stores.lastMember.put (slotKey st cls) m } } := by
  obtain ⟨hs, hw, -⟩ := h
  let r : SysAccess := { cls := cls, member := m, addr := 0, op := none }
  have he : s.enterSys st r = { s with stores := { s.stores with slots := s.stores.slots.put (slotKey st cls) r } } := by
    unfold State.enterSys
    simp only
    rw [if_neg (by simp [r, hs cls hc])]
  have hn : (s.enterSys st r).nextSys st = some r := by
    rw [he]
    unfold State.nextSys
    refine findSome_const _ r _ (fun i _ => ?_) ?_
    · simp only [Sparse.find_put _ _ _ _ (hs _ (Nat.mod_lt _ (by decide)))]
      split <;> simp
    · refine ⟨(cls + 9 - s.stores.lastClass.look st 4 % 5) % 5, List.mem_range.mpr (Nat.mod_lt _ (by decide)), ?_⟩
      have e : (s.stores.lastClass.look st 4 + 1 + (cls + 9 - s.stores.lastClass.look st 4 % 5) % 5) % 5 = cls := by omega
      simp only [e, Sparse.find_put _ _ _ _ (hs _ hc)]
      rfl
  have hl : 0 < (s.enterSys st r).stores.slots.length := by
    refine List.length_pos_iff.mpr fun e => ?_
    unfold State.nextSys at hn
    rw [e] at hn
    cases hn
  have hd : (s.enterSys st r).leaveSys st r = { s with stores :=
      { s.stores with lastClass := s.stores.lastClass.put st cls, lastMember := s.stores.lastMember.put (slotKey st cls) m } } := by
    rw [he]
    unfold State.leaveSys
    simp only [r, hw, List.filter_nil, List.map_nil, nextMember, Sparse.del_put _ _ _ (hs cls hc)]
  show State.serveUntil (s.enterSys st r) st ((s.enterSys st r).stores.slots.length + (s.enterSys st r).stores.waits.length) = _
  obtain ⟨n, e⟩ : ∃ n, (s.enterSys st r).stores.slots.length + (s.enterSys st r).stores.waits.length = n + 1 :=
    Nat.exists_eq_add_one.mpr (by omega)
  rw [e]
  unfold State.serveUntil
  rw [hn]
  exact hd

/-- What precedes an access where nothing waits changes only who was served last, and nothing waits after it either. -/
theorem State.before_free (who : Requester) (st : Nat) (h : s.free st) (hw : ∀ c m, who = .sys c m → c < 5) :
    ∃ u, s.before who st = { s with stores := u } ∧ u = { s.stores with lastClass := u.lastClass, lastMember := u.lastMember } := by
  unfold State.before
  split
  · refine ⟨s.stores, ?_, rfl⟩
    unfold State.drainBridge
    rw [h.2.2, List.foldl_nil, ← h.2.2]
  · split
    · exact ⟨_, State.sysTurn_free s _ _ _ h (hw _ _ rfl), rfl⟩
    · exact ⟨s.stores, rfl, rfl⟩

/-- The turn of an access where nothing waits: the stores' counters of turns and wheels change, and nothing else. -/
theorem State.turnFor_free (who : Requester) (a : Nat) (h : ∀ st, storeOf a = some st → s.free st) (hw : ∀ c m, who = .sys c m → c < 5) :
    ∃ u, s.turnFor who a = { s with stores := u } ∧
      u = { s.stores with wheel := u.wheel, lastClass := u.lastClass, lastMember := u.lastMember } := by
  unfold State.turnFor
  split
  · exact ⟨s.stores, rfl, rfl⟩
  · rename_i st e
    obtain ⟨u, h1, h2⟩ := State.before_free s who st (h st e) hw
    rw [h1, h2]
    exact ⟨_, rfl, rfl⟩

/-- The turns of a run of accesses where nothing waits. -/
theorem State.turnSpan_free (who : Requester) (a n : Nat)
    (h : ∀ b st, a / 256 * 256 ≤ b → b < a + n → storeOf b = some st → s.free st) (hw : ∀ c m, who = .sys c m → c < 5) :
    ∃ u, s.turnSpan who a n = { s with stores := u } ∧
      u = { s.stores with wheel := u.wheel, lastClass := u.lastClass, lastMember := u.lastMember } := by
  unfold State.turnSpan
  split
  · exact ⟨s.stores, rfl, rfl⟩
  · have g : ∀ i ∈ List.range ((a + n - 1) / 256 - a / 256 + 1), ∀ st, storeOf ((a / 256 + i) * 256) = some st → s.free st := by
      intro i hi st e
      have := List.mem_range.mp hi
      exact h _ st (by omega) (by omega) e
    revert g
    generalize List.range _ = l
    intro g
    induction l generalizing s with
    | nil => exact ⟨s.stores, rfl, rfl⟩
    | cons i l ih =>
      obtain ⟨u, h1, h2⟩ := State.turnFor_free s who ((a / 256 + i) * 256) (g i (by simp)) hw
      rw [List.foldl_cons, h1, h2]
      obtain ⟨v, h3, h4⟩ := ih { s with stores := { s.stores with wheel := u.wheel, lastClass := u.lastClass, lastMember := u.lastMember } }
        h (fun j hj => g j (by simp [hj]))
      exact ⟨v, h3, by rw [h4]⟩

end Machine

end Sys2Proof
end

