-- ==== Sys2Proof/Machine/Program.lean ====
section
/-! DEFINITION. The programs of engines: the instruction word at an engine's position, in its core's pocket (R99, R128) or in its
keeper's program memory (R423), and the command it is. -/

namespace Sys2Proof.Machine

/-- The instruction word at position `i` of an engine's program (R99, R128, R423). -/
def State.programWord (s : State) (e : EngId) (i : Nat) : BitVec 64 :=
  match e with
  | .fetch c | .execute c => (s.core c).pocketAt i
  | .keeper k => (s.keeper k).program.look i 0

/-- The command that an engine which waits for nothing comes to next: the word of its program at its position (R129, R132, R423).  A
command that executes an instruction carries the word itself; its sender takes it from here. (DESIGN CHOICE, log entry 223.) -/
def State.nextInstr (s : State) (e : EngId) : Instr := decodeKukar e (s.programWord e (s.eng e).pc)

end Sys2Proof.Machine
end

