-- ==== Sys2Proof/Tests/Slice0.lean ====
section
/-! SUPPORT. The model's own tests: ill-formed commands, values worked out in the spec or by hand from its rules, and for every
statement with hypotheses a state and operands that meet them. -/

namespace Sys2Proof.Tests

open Sys2Proof.Machine

set_option Elab.async false

/-! ### States and words of the tests -/

/-- An instruction word's fields with ENGINE `n` and operands `x`, unguarded. -/
def word (n : Nat) (x : Nat) : KBits := { engine := BitVec.ofNat 2 n, gn := false, gp := 0, ops := BitVec.ofNat 50 x }

/-- The device after reset, its stores initialised (R88). -/
def up : State := State.reset.setFld F.STO_STATUS_INIT_DONE 1

/-- The device with core 0 RUNNING. -/
def core0 (f x : Engine) : State := up.setCore 0 { state := 2, fetch := f, exec := x }

/-- The device with keeper 0 RUNNING. -/
def keeper0 (x : Engine) : State := up.setKeeper 0 { state := 1, eng := x }

/-- An engine whose S1 is `v` and whose A0 is `a`. -/
def engine (v : Word) (a : Addr) : Engine := { s := [(1, v)], a := [(0, a)] }

/-- A frame of message type `m` from chip 1 to chip 0, with no data. -/
def frame (m : Nat) : Frame :=
  { seq := 0, ackn := 0, mtype := BitVec.ofNat 8 m, dst := 0, src := 1, hops := 0, hostSrc := false, hostDst := false, ackReq := true
    poison := false, first := false, repair := false, tag := 0, win := 0, status := 0, gen := 0, chan := 0, group := 0, offset := 0
    aux := 0, data := [], crc := 0 }

/-- On a word that nothing waits on, nothing waits. -/
theorem unwatched_of (s : State) (a n : Nat) (h1 : s.tst.injection = none) (h2 : s.stores.late = []) (h3 : s.stores.watches = []) :
    s.unwatched a n := by
  intro i _
  refine ⟨fun j h => ?_, fun l h => ?_, fun st _ w h => ?_⟩
  · rw [h1] at h; cases h
  · rw [h2] at h; cases h
  · rw [h3] at h; cases h

/-- Where no stored bit differs and no word is poisoned, every word is clean. -/
theorem clean_of (s : State) (a n : Nat) (h1 : s.flips = []) (h2 : s.poison = []) : s.clean a n := by
  intro i _
  rw [h1, h2]
  exact ⟨rfl, rfl⟩

/-- A run of bytes of such a memory is open. -/
theorem open_of (s : State) (a n : Nat) (h1 : s.tst.injection = none) (h2 : s.stores.late = []) (h3 : s.stores.watches = [])
    (h4 : s.flips = []) (h5 : s.poison = []) : s.open_ a n :=
  fun _ _ => ⟨clean_of _ _ _ h4 h5, unwatched_of _ _ _ h1 h2 h3⟩

/-! ### Commands that are not well-formed -/

theorem test_wf_port_words : Instr.wellFormed (.storeAccess (.port 0 0 0 (.read 65))) = false := by decide
theorem test_wf_port_number : Instr.wellFormed (.storeAccess (.port 3 1 0 (.read 1))) = false := by decide
theorem test_wf_frame : Instr.wellFormed (.data 0 (frame 1)) = true ∧
    Instr.wellFormed (.data 0 { frame 1 with data := [1] }) = false := by decide
theorem test_wf_tick : Instr.wellFormed (.managementTick { storeUtil := [], hyperUtil := 0, motRead := [0, 0], motWrite := [0, 0] }) = false := by
  decide
theorem test_wf_nop : Instr.wellFormed (.nop (.fetch 0) 0x01 (word 0 0)) = false ∧ Instr.wellFormed (.nop (.fetch 0) 0x0C (word 0 0)) = true := by
  decide
theorem test_wf_nop_elem : Instr.wellFormed (.nop (.execute 0) 0x90 (word 2 (18 * 2 ^ 45))) = false ∧
    Instr.wellFormed (.nop (.execute 0) 0x90 (word 2 (19 * 2 ^ 45))) = true ∧
    Instr.wellFormed (.nop (.execute 0) 0x99 (word 2 (1 * 2 ^ 48))) = false := by decide
theorem test_wf_operation : Instr.wellFormed (.epochOpen (.keeper 0) (word 3 0)) = false ∧
    Instr.wellFormed (.epochOpen (.keeper 0) (word 3 (2 ^ 48))) = true ∧ Instr.wellFormed (.elemRsum (.execute 0) (word 2 0)) = false ∧
    Instr.wellFormed (.reqLoad (.execute 0) (word 2 (2 ^ 31))) = false ∧ Instr.wellFormed (.statMse (.execute 0) (word 2 0)) = false ∧
    Instr.wellFormed (.digestCheck (.execute 0) (word 2 0)) = false := by decide

/-! ### The hypotheses of the statements are met: instructions -/

theorem witness_step_runs_front : ∃ s : State, s.pending = [] := ⟨State.reset, rfl⟩

theorem witness_scalar_results : Starts anyEngine (core0 {} {}) (.fetch 0) (word 0 0) ((word 0 0).z 34 0) ∧
    Starts anyEngine (keeper0 {}) (.keeper 0) (word 3 0xFFFFFFFF) ((word 3 0xFFFFFFFF).z 39 32) := by unfold Starts; decide +kernel

theorem witness_address_and_descriptor_results :
    let s := core0 {} {}
    Starts fetchKeeper s (.fetch 0) (word 1 0xFFFFFFFFFF) ((word 1 0xFFFFFFFFFF).z 45 40) ∧
    Starts fetchKeeper s (.fetch 0) (word 1 0xFFFFFFFF) ((word 1 0xFFFFFFFF).z 36 32) ∧
    (let b := word 2 (7 * 2 ^ 32)
     Starts coreEngines s (.execute 0) b (b.z 44 40 && b.z 31 0) ∧ Starts coreEngines s (.execute 0) b (b.z 39 35 && b.z 31 0)) ∧
    (let b := word 2 (31 * 2 ^ 45)
     Starts coreEngines s (.execute 0) b (b.z 39 0) ∧ Starts coreEngines s (.execute 0) b (b.z 44 40 && b.z 34 0)) := by
  unfold Starts; decide +kernel

theorem witness_predicates_and_going_on :
    (let b := word 0 (5 * 2 ^ 44)
     Starts anyEngine (core0 {} {}) (.fetch 0) b (b.z 33 0 && decide (b.f 46 44 ≤ 5)) ∧
     Starts anyEngine (core0 {} {}) (.fetch 0) b (b.z 38 32 && decide (b.f 46 44 ≤ 5)) ∧ Starts anyEngine (core0 {} {}) (.fetch 0) b (b.z 36 0) ∧
     Starts anyEngine (core0 {} {}) (.fetch 0) b (b.z 42 0)) ∧
    Starts anyEngine (keeper0 {}) (.keeper 0) (word 0 0) ((word 0 0).z 49 0) ∧
    (let x := (core0 { pc := 8190 } {}).eng (.fetch 0)
     x.loops = [] ∧ x.pc < 8191) ∧
    (let x := (core0 { pc := 8191 } {}).eng (.fetch 0)
     x.loops = [] ∧ x.pc = 8191) ∧
    (let x := (core0 { pc := 9, loops := [⟨3, 4, 9⟩], n := [(3, 2)] } {}).eng (.fetch 0)
     x.loops = [⟨3, 4, 9⟩] ∧ (9 : Nat) = x.pc ∧ x.rn 3 ≠ 1 ∧ (4 : Nat) ≤ 8191) := by unfold Starts; decide +kernel

theorem witness_load_results :
    (let s := core0 (engine 0 0x0BFFFFE0) {}
     Starts { both := true, fetch := true } s (.fetch 0) (word 0 0) ((word 0 0).z 40 32) ∧ s.coreServed 0x0BFFFFE0 8 = true ∧
       s.coreServed 0x0BFFFFE0 1 = true ∧ s.opens 0x0BFFFFE0 = true ∧ s.portFree 0x0BFFFFE0 = true ∧ (s.eng (.fetch 0)).loaded = none ∧
       (s.core 0).fwd.length < 16 ∧ s.flips = [] ∧ s.poison = []) ∧
    (let s := up.setCore 0 { state := 2, fetch := engine 0 0x0BFFFFE0, fwd := List.replicate 16 { pc := 0, value := 1 } }
     Starts { both := true, fetch := true } s (.fetch 0) (word 0 0) ((word 0 0).z 40 32) ∧ s.coreServed 0x0BFFFFE0 8 = true ∧
       s.opens 0x0BFFFFE0 = true ∧ s.portFree 0x0BFFFFE0 = true ∧ (s.eng (.fetch 0)).loaded = none ∧ 16 ≤ (s.core 0).fwd.length ∧
       s.flips = [] ∧ s.poison = []) ∧
    (let s := core0 { loaded := some 5 } {}
     Starts { both := true, fetch := true } s (.fetch 0) (word 0 0) ((word 0 0).z 40 32) ∧ (s.eng (.fetch 0)).loaded = some 5 ∧
       (s.core 0).fwd.length < 16) ∧
    (∀ f ∈ [[], [{ pc := 0, value := 1 }], [{ pc := 1, value := 1 }]],
      let s := up.setCore 0 { state := 2, fwd := f }
      Starts { both := true, fetch := true } s (.execute 0) (word 0 0) ((word 0 0).z 40 32) ∧ (s.core 0).fwd = f) := by
  unfold Starts; decide +kernel

theorem witness_store_results :
    (let s := core0 (engine 7 0x0BFFFFE0) {}
     Starts { fetch := true } s (.fetch 0) (word 1 0) ((word 1 0).z 40 32) ∧ s.coreServed 0x0BFFFFE0 8 = true ∧
       s.opens 0x0BFFFFE0 = true ∧ s.portFree 0x0BFFFFE0 = true ∧ s.tst.injection = none ∧ s.stores.late = [] ∧ s.stores.watches = [] ∧ (s.eng (.fetch 0)).pc < 8191 ∧
       (s.eng (.fetch 0)).loops = []) := by unfold Starts; decide +kernel

theorem witness_refused_and_keeper_accesses :
    (let s := core0 (engine 0 1) {}
     Starts { both := true, fetch := true } s (.fetch 0) (word 1 0) ((word 1 0).z 40 32) ∧
       Starts { fetch := true } s (.fetch 0) (word 1 0) ((word 1 0).z 40 32) ∧ s.coreServed 1 1 = false ∧ s.coreServed 1 8 = false ∧
       (s.eng (.fetch 0)).loaded = none) ∧
    (let s := keeper0 (engine 0 0x04000000)
     Starts { both := true, fetch := true, keeper := true } s (.keeper 0) (word 0 0) ((word 0 0).z 40 32) ∧
       s.storeOk (mmAddr (s.eng (.keeper 0)) (word 0 0)) 1 = true ∧ s.opens (mmAddr (s.eng (.keeper 0)) (word 0 0)) = true ∧
       s.portFree (mmAddr (s.eng (.keeper 0)) (word 0 0)) = true ∧ s.flips = [] ∧ s.poison = []) ∧
    (let s := keeper0 (engine 0 0x0F00000014)
     Starts { both := true, fetch := true, keeper := true } s (.keeper 0) (word 0 0) ((word 0 0).z 40 32) ∧
       ctrlBase ≤ mmAddr (s.eng (.keeper 0)) (word 0 0) ∧ regServed (mmAddr (s.eng (.keeper 0)) (word 0 0) - ctrlBase) = true ∧
       (s.regRead (mmAddr (s.eng (.keeper 0)) (word 0 0) - ctrlBase)).1 = some 0) ∧
    (let s := ((keeper0 (engine 0 0x0100000000)).setFld F.HYP_CFG_CAP 1).setFld F.HYP_STATUS_READY 1
     Starts { both := true, fetch := true, keeper := true } s (.keeper 0) (word 0 0) ((word 0 0).z 40 32) ∧ s.inHyper 0x0100000000 4 = true) ∧
    (let s := keeper0 (engine 0 0x020FFFFFFC)
     Starts { both := true, fetch := true, keeper := true } s (.keeper 0) (word 0 0) ((word 0 0).z 40 32) ∧
       mmAddr (s.eng (.keeper 0)) (word 0 0) % 4 = 0 ∧ flashBase ≤ mmAddr (s.eng (.keeper 0)) (word 0 0) ∧
       mmAddr (s.eng (.keeper 0)) (word 0 0) < flashBase + 0x10000000) := by unfold Starts; decide +kernel

theorem witness_control_flow :
    let s := core0 (engine 3 0) {}
    Starts anyEngine s (.fetch 0) (word 0 8191) ((word 0 8191).z 49 13) ∧
    (let b := word 0 (1 * 2 ^ 43 + 5 * 2 ^ 30)
     Starts anyEngine s (.fetch 0) b (b.z 29 16) ∧ loopIllegal (s.eng (.fetch 0)) 0 b = false ∧
       (s.eng (.fetch 0)).rs (b.f 47 43) + BitVec.ofNat 32 (b.f 15 0) ≠ 0) ∧
    (let b := word 0 (5 * 2 ^ 30)
     Starts anyEngine s (.fetch 0) b (b.z 29 16) ∧ loopIllegal (s.eng (.fetch 0)) 0 b = false ∧
       (s.eng (.fetch 0)).rs (b.f 47 43) + BitVec.ofNat 32 (b.f 15 0) = 0) ∧
    loopIllegal (s.eng (.fetch 0)) (s.eng (.fetch 0)).pc (word 0 0) = true ∧ (s.eng (.fetch 0)).guard { word 0 (5 * 2 ^ 30) with gn := true } = false ∧
    Starts { both := true, keeper := true } s (.fetch 0) (word 0 0) ((word 0 0).z 49 0) ∧ (s.core 0).exec.stopped = false ∧
    (let u := core0 {} { stopped := true }
     Starts { both := true, keeper := true } u (.fetch 0) (word 0 0) ((word 0 0).z 49 0) ∧ (u.core 0).exec.stopped = true) ∧
    Starts { both := true, keeper := true } (keeper0 {}) (.keeper 0) (word 3 0) ((word 3 0).z 49 0) := by unfold Starts; decide +kernel

theorem witness_memory_side_results :
    let s := core0 (engine 3 0x100) {}
    s.msOk 0x100 = true ∧ s.opens 0x100 = true ∧ s.portFree 0x100 = true ∧ s.flips = [] ∧ s.poison = [] ∧
    (let b := word 1 (1 * 2 ^ 33 + 5 * 2 ^ 25)
     Starts fetchKeeper s (.fetch 0) b (b.z 32 28 && decide (b.f 27 25 ≤ 5)) ∧ b.f 24 24 = 0 ∧ msAddr (s.eng (.fetch 0)) b = 0x100) ∧
    (let b := word 1 (1 * 2 ^ 33 + 1 * 2 ^ 24)
     Starts fetchKeeper s (.fetch 0) b (b.z 32 28 && decide (b.f 27 25 ≤ 5)) ∧ b.f 24 24 = 1 ∧
       condHolds (b.f 27 25) (s.rawWord 0x100) ((s.eng (.fetch 0)).rs (b.f 37 33)) = false ∧ s.stores.watches = []) ∧
    Starts fetchKeeper s (.fetch 0) (word 1 0) ((word 1 0).z 32 8) ∧ Starts fetchKeeper s (.fetch 0) (word 1 0) ((word 1 0).z 27 8) := by
  unfold Starts; decide +kernel

theorem witness_guards_and_illegal_instructions :
    let s := (core0 {} {}).setKeeper 1 { state := 1 }
    Quiet s ∧ State.reset.ready (.fetch 0) = false ∧ s.ready (.fetch 0) = true ∧ s.ready (.keeper 1) = true ∧ takes (.fetch 0) 2 = false ∧
    takes (.fetch 0) 3 = true ∧ anyEngine.ok (.fetch 0) 3 = false ∧ execOnly.ok (.fetch 0) 1 = false ∧ (word 1 1).z 34 0 = false ∧
    (s.eng (.fetch 0)).rp 0 = true ∧ ({ word 1 0 with gn := true }).gn = true ∧ 6 ≤ (word 1 (6 * 2 ^ 44)).f 46 44 ∧
    (s.eng (.fetch 0)).pc < 8192 ∧ s.log.length < 64 ∧ s.bit F.CORE_FAULT_VALID 0 = false ∧ s.bit F.KEP_FAULT_VALID 1 = false := by
  decide +kernel

/-! ### Slots, streams, chains and epochs -/

/-- A ring table entry of core 0: eight slots of 64 bytes from 0x1000, valid. -/
def ringed (s : State) : State := ((((s.wr .RING_LO 0x1000 0 0).setFld F.RING_HI_SLOTS 7 0 0).setFld F.RING_HI_VALID 1 0 0).wr .RING_STRIDE 64 0 0)

/-- A descriptor of type `ty` with extents e0, 1, e2 and 1, at address 0. -/
def desc (ty e0 e2 : Nat) : BitVec 256 :=
  BitVec.ofNat 256 (ty * 2 ^ 40 + (e0 + 65536) * 2 ^ 64 + (e2 + 65536) * 2 ^ 96)

theorem witness_slot_instructions :
    let s := ringed (core0 { s := [(1, 7), (2, 1)] } {})
    let b := word 1 (1 * 2 ^ 41 + 2 * 2 ^ 36)
    Starts { fetch := true } s (.fetch 0) b (b.z 35 16) ∧ (s.ring 0 0).fill 7 = 0x11C0 ∧ s.slotOk (s.ring 0 0) 7 0x11C0 = true ∧
    s.slotOk (s.ring 0 0) 7 0x11C4 = true ∧ s.slotOk (s.ring 0 0) 8 0x1200 = false ∧ (s.eng (.fetch 0)).fence = none ∧
    s.opens 0x11C0 = true ∧ s.portFree 0x11C0 = true ∧ s.opens 0x11C4 = true ∧ s.portFree 0x11C4 = true ∧
    s.settleAll 0 = s ∧ s.issued 0 true = [] ∧ s.issued 0 false = [] ∧
    (let u := ringed (up.setCore 0 { state := 2, fetch := { s := [(1, 7), (2, 1)], fence := some [(0, 1)] } })
     ∀ p ∈ [(0, (1 : Word))], ((u.core 0).stream p.1).cur = none ∨ u.rd .STR_ACC 0 p.1 ≠ p.2) ∧
    (s.core 0).streams = [] ∧ s.flips = [] ∧ s.poison = [] ∧ s.stores.watches = [] ∧
    2 ^ 31 ≤ (s.rawWord 0x11C0 - ((s.eng (.fetch 0)).rs (b.f 40 36) + BitVec.ofNat 32 (b.f 15 0))).toNat ∧
    (let b := word 1 (1 * 2 ^ 41)
     Starts { fetch := true } s (.fetch 0) b (b.z 35 16) ∧
       (s.rawWord 0x11C4 - ((s.eng (.fetch 0)).rs (b.f 40 36) + BitVec.ofNat 32 (b.f 15 0))).toNat < 2 ^ 31) := by
  unfold Starts; decide +kernel

theorem witness_stream_armings :
    let x : Engine := { d := [(0, desc 1 4 1)] }
    let b := word 1 (1 * 2 ^ 43)
    let s := core0 x {}
    let y := armingOf x b
    let busy := up.setCore 0 { state := 2, fetch := x, streams := [(0, { cur := some y })] }
    let full := up.setCore 0 { state := 2, fetch := x, streams := [(0, { cur := some y, shadow := some y })] }
    let past := up.setCore 0 { state := 2, fetch := x, streams := [(3, { cur := some y, entry := 1 })] }
    Starts { fetch := true } s (.fetch 0) b (armFields b) ∧ Straight s (.fetch 0) ∧ s.armOk y = true ∧ s.armOver 0 y = false ∧
    y.zero = false ∧ s.queueFree 0 0 y = true ∧ ((s.core 0).stream 0).cur = none ∧ ((s.core 0).stream 0).shadow = none ∧
    Starts { fetch := true } busy (.fetch 0) b (armFields b) ∧ Straight busy (.fetch 0) ∧ ((busy.core 0).stream 0).shadow = none ∧
    Starts { fetch := true } full (.fetch 0) b (armFields b) ∧ ((full.core 0).stream 0).cur ≠ none ∧
    Starts { fetch := true } full (.fetch 0) (word 1 0) ((word 1 0).z 45 0) ∧
    past.streamsRun 0 = true ∧ y.total ≤ ((past.core 0).stream 3).entry ∧ ((past.core 0).stream 3).outBuf = [] ∧
    ((past.core 0).stream 3).taken = none ∧ ((past.core 0).stream 3).shadow = none ∧ Quiet past ∧
    (let s := core0 { d := [(0, desc 1 0 1)] } {}
     (armingOf (s.eng (.fetch 0)) b).zero = true ∧ s.armOk (armingOf (s.eng (.fetch 0)) b) = true ∧
       s.armOver 0 (armingOf (s.eng (.fetch 0)) b) = false) ∧
    (core0 {} {}).armOk (armingOf { d := [(0, desc 15 4 1)] } b) = false ∧
    (let s := core0 { d := [(0, desc 1 4 1)] } {}
     let s := s.setCore 0 { s.core 0 with limits := some [] }
     s.armOk (armingOf (s.eng (.fetch 0)) b) = true ∧ s.armOver 0 (armingOf (s.eng (.fetch 0)) b) = true) := by
  unfold Starts Straight; decide +kernel

/-- A tile of 1,024 zero words. -/
def tile (id : Nat) (tag : Word) : Tile := { id := id, words := List.replicate 1024 0, poison := false, tag := tag }

/-- Core 0 of a chain whose successor is core 8. -/
def chained (k : Core) : State :=
  let s := up.setCore 0 k
  ((((s.setFld F.CHAIN_CFG_MEMBER 1 0).setFld F.CHAIN_CFG_NEXT_VALID 1 0).setFld F.CHAIN_CFG_NEXT 8 0).setFld F.CHAIN_CFG_MEMBER 1 8)

theorem witness_chain_instructions_send :
    (let s := chained { state := 2, tiles := [tile 1 0] }
     Starts { fetch := true } s (.fetch 0) (word 1 0) ((word 1 0).z 49 0) ∧ s.hasNext 0 = true ∧
       ((s.core 0).tiles.find? (fun t => !t.sent)).isSome = true ∧ s.fld F.CHAIN_CFG_NEXT 0 = 8 ∧ s.bit F.CHAIN_CFG_MEMBER 8 = true ∧
       (s.core 8).skid.length < 2 ∧ s.auditRuns 8 = false ∧ Straight s (.fetch 0) ∧
       (let s := s.setCore 8 { skid := [tile 2 0, tile 3 1] }
        Starts { fetch := true } s (.fetch 0) (word 1 0) ((word 1 0).z 49 0) ∧ s.hasNext 0 = true ∧ 2 ≤ (s.core 8).skid.length)) ∧
    (let s := chained { state := 2 }
     Starts { fetch := true } s (.fetch 0) (word 1 0) ((word 1 0).z 49 0) ∧ s.hasNext 0 = true ∧ (s.core 0).tiles = []) ∧
    (core0 {} {}).hasNext 0 = false ∧
    (let s := up.setCore 0 { state := 2, tiles := [tile 1 0] }
     Starts { exec := true } s (.execute 0) (word 2 0) ((word 2 0).z 49 0) ∧ ((s.core 0).tiles.find? (fun t => !t.released)).isSome = true) ∧
    (let s := core0 {} {}
     Starts { exec := true } s (.execute 0) (word 2 0) ((word 2 0).z 49 0) ∧ (s.core 0).tiles = []) := by
  unfold Starts Straight; decide +kernel

theorem witness_chain_instructions_receive :
    let x : Engine := { d := [(0, desc 1 2 1 + (0x1000 <<< 128))] }
    (∀ skid ∈ [[tile 5 0], [tile 5 1], []],
      let s := (up.setCore 0 { state := 2, fetch := x, skid := skid }).setFld F.CHAIN_CFG_SOURCE 0 0
      Starts { fetch := true } s (.fetch 0) (word 1 0) ((word 1 0).z 44 0) ∧ (Desc.of (x.rdesc 0)).chainOk = true ∧
        (s.core 0).room 0 1024 = true ∧ s.bit F.CHAIN_CFG_SOURCE 0 = false ∧ s.rd .CHAIN_TAG 0 = 0 ∧ (s.core 0).fetch.loops = [] ∧
        (∀ k < 16, ((s.core 0).stream k).cur = none) ∧ s.opens 0 = true ∧ ∀ i < 16, s.storeOk (256 * i) 64 = true) ∧
    (let s := up.setCore 0 { state := 2, fetch := x, tiles := [tile 1 0, tile 2 0, tile 3 0, tile 4 0] }
     Starts { fetch := true } s (.fetch 0) (word 1 0) ((word 1 0).z 44 0) ∧ (s.core 0).room 0 1024 = false) ∧
    (let s := (core0 x {}).setFld F.CHAIN_CFG_SOURCE 1 0
     Starts { fetch := true } s (.fetch 0) (word 1 0) ((word 1 0).z 44 0) ∧ s.bit F.CHAIN_CFG_SOURCE 0 = true ∧
       s.opens 0 = true ∧ (∀ i < 16, s.storeOk (256 * i) 64 = true) ∧ s.flips = [] ∧ s.poison = []) := by unfold Starts; decide +kernel

theorem witness_chain_events :
    (let s := (chained { state := 2, fetch := { wait := .blocked 0x58 (word 1 0), stall := some (0, false) }, tiles := [tile 1 0] }).setCore 8
        { skid := [tile 2 0, tile 3 1] }
     let s := { s with time := 3414 }
     Quiet s ∧ s.stalled 0 = true ∧ s.underAudit (s.fld F.CHAIN_CFG_NEXT 0) = false) ∧
    (let s := (chained { state := 2 }).setFld F.CHAIN_CFG_PRED 16 0
     Quiet s ∧ s.bit F.CHAIN_CFG_MEMBER 0 = true ∧ s.underAudit 0 = false ∧ s.bit F.CHAIN_CFG_PRED_VALID 0 = false ∧
       s.bit F.CHAIN_CFG_NEXT_VALID 0 = true ∧
       (let s := s.setFld F.CHAIN_CFG_PRED_VALID 1 0
        s.bit F.CHAIN_CFG_PRED_VALID 0 = true ∧ s.bit F.CHAIN_CFG_NEXT_VALID 0 = true ∧
          (s.setFld F.CHAIN_CFG_NEXT_VALID 0 0).bit F.CHAIN_CFG_PRED_VALID 0 = true ∧
          (s.setFld F.CHAIN_CFG_NEXT_VALID 0 0).bit F.CHAIN_CFG_NEXT_VALID 0 = false)) := by decide +kernel

theorem witness_epoch_operations :
    let s := keeper0 (engine 9 0)
    let b := word 3 (1 * 2 ^ 43)
    Starts { keeper := true } s (.keeper 0) b (b.z 42 0 && b.engine == 3) ∧ Straight s (.keeper 0) ∧ s.epochState = 0 ∧
    (let u := (s.setFld F.KNT_STATUS_EPOCH_STATE 1).setFld F.SRC_CTRL_EN 1 0
     Starts { keeper := true } u (.keeper 0) b (b.z 42 0 && b.engine == 3) ∧ u.epochState = 1 ∧ u.outputOn = true ∧
       (∀ x < 2, u.streamChecks x = true) ∧ u.epochState ≠ 0) ∧
    (let u := (((core0 (engine 9 0) {}).setFld F.KNT_STATUS_EPOCH_STATE 2).wr .EPOCH_NUM 9).wr .EPOCH_CORES 1
     let b := word 1 (1 * 2 ^ 43)
     Starts { fetch := true } u (.fetch 0) b (b.z 42 0) ∧ Straight u (.fetch 0) ∧ u.epochState = 2 ∧
       (u.eng (.fetch 0)).rs (b.f 47 43) = u.rd .EPOCH_NUM ∧ (u.fld F.EPOCH_CORES_CORES).testBit 0 = true) ∧
    Starts { fetch := true } (core0 {} {}) (.fetch 0) (word 1 0) ((word 1 0).z 42 0) ∧ (core0 {} {}).epochState = 0 := by
  unfold Starts Straight; decide +kernel

/-! ### Tensor instructions -/

/-- Core 0 with descriptor `d` in D0 of its execute engine, one entry of a word in queues 1 to 4, and tiles. -/
def tensor (d : BitVec 256) (tiles : List Tile) (r : Option MatRun) (wty : Nat) : State :=
  up.setCore 0
    { state := 2, exec := { d := [(0, d)], s := [(1, 1), (2, 64)] }, tiles := tiles, lastTaken := tiles.head?.map (fun t => t.id)
      queues := (List.range 4).map (fun q => (q + 1, { entries := [{ words := [0x01010101], poison := false }] }))
      plane := some { tileId := 1, words := List.replicate 1024 0, poison := false, wty := wty }, matRun := r }

/-- A tile of 2,048 zero words. -/
def bigTile (id : Nat) : Tile := { id := id, words := List.replicate 2048 0, poison := false, tag := 0 }

/-- MMA, CONV or DWCONV of queue 1 under KEEP. -/
def keepWord : KBits := word 2 (1 * 2 ^ 47)
/-- CONV of two taps, or DWCONV, of queue 1 under NEXT. -/
def nextWord (taps : Nat) : KBits := word 2 (1 * 2 ^ 47 + 1 * 2 ^ 29 + 1 * 2 ^ 28 + (taps - 1) * 2 ^ 22)
/-- WINO of queues 1 to 4 under NEXT with rel. -/
def winoWord : KBits := word 2 (1 * 2 ^ 47 + 1 * 2 ^ 29 + 1 * 2 ^ 28 + 2 * 2 ^ 26)

/-- Whether a frame was taken. -/
def taken : FrameTake → Bool
  | .frame _ _ => true
  | _ => false

/-- A matrix instruction whose checks pass and whose frame has arrived issues. -/
theorem issues_of (s : State) (c : Nat) (b : KBits) (m : MatOp)
    (h : (s.core c).matRun = none ∧ m.d.inputOk = true ∧ m.d.over (s.core c).limits = false ∧ m.d.e0 ≠ 0 ∧ m.d.e2 ≠ 0 ∧
      m.d.frameOk = true ∧ m.d.bankOk m.frameRows = true ∧ m.ok = true ∧ (m.wty = 1 → b.trow % 2 = 0) ∧
      (wtOf b ≠ 0 → relOf b = false → (s.core c).tilesFit (wtOf b == 2) m.wty m.tiles = true) ∧
      taken (s.takeFrame c b.tq m.frameRows m.d).1 = true) : ∃ f p u, Issues s c b m f p u := by
  obtain ⟨h1, h2, h3, h4, h5, h6, h0, h7, h8, h9, h10⟩ := h
  generalize hr : s.takeFrame c b.tq m.frameRows m.d = r at h10
  obtain ⟨a, u⟩ := r
  cases a with
  | frame f p => exact ⟨f, p, u, ⟨h1, h2, h3, h4, h5, h6, h0, h7, h8, h9⟩, hr⟩
  | wait => cases h10
  | badEntry => cases h10

theorem witness_matrix_sums :
    (let s := tensor (desc 1 4 1) [] none 0
     Starts { exec := true } s (.execute 0) keepWord (taFields keepWord && keepWord.z 25 8) ∧ Straight s (.execute 0) ∧
       ∃ f p u, Issues s 0 keepWord (mmaPlan (s.eng (.execute 0)) keepWord) f p u) ∧
    (let s := tensor (desc 1 4 1) [tile 1 0, tile 2 0] none 0
     let b := nextWord 2
     Starts { exec := true } s (.execute 0) b
       (taFields b && b.z 16 8 && decide (b.f 25 22 ≤ 8) && !(wtOf b == 0 && b.f 25 22 != 0)) ∧ Straight s (.execute 0) ∧
       (∃ f p u, Issues s 0 b (convPlan (s.eng (.execute 0)) b) f p u) ∧ Supplied s 0 b 0 [tile 1 0, tile 2 0]) ∧
    (let s := tensor (desc 1 4 1) [tile 2 0] (some ⟨[], false, 1⟩) 0
     let b := nextWord 2
     Starts { exec := true } s (.execute 0) b
       (taFields b && b.z 16 8 && decide (b.f 25 22 ≤ 8) && !(wtOf b == 0 && b.f 25 22 != 0)) ∧ Straight s (.execute 0) ∧
       (convPlan (s.eng (.execute 0)) b).ok = true ∧ Arrived s 0 b 0 [tile 2 0]) := by
  refine ⟨⟨by unfold Starts; decide +kernel, by unfold Straight; decide +kernel, ?_⟩,
    ⟨by unfold Starts; decide +kernel, by unfold Straight; decide +kernel, ?_, ?_⟩,
    ⟨by unfold Starts; decide +kernel, by unfold Straight; decide +kernel, by decide +kernel, ?_⟩⟩
  · exact issues_of _ _ _ _ (by decide +kernel)
  · exact issues_of _ _ _ _ (by decide +kernel)
  · exact ⟨by decide +kernel, by decide +kernel, ⟨[], by decide +kernel⟩, by decide +kernel⟩
  · exact ⟨by decide +kernel, by decide +kernel, ⟨[], by decide +kernel⟩, by decide +kernel⟩

theorem witness_depthwise_and_winograd :
    (let s := tensor (desc 1 4 1) [tile 1 0] none 0
     Starts { exec := true } s (.execute 0) keepWord
       (taFields keepWord && decide (keepWord.f 25 22 ≤ 8 ∧ keepWord.f 16 14 ≤ 5) && wtyOf keepWord == 0) ∧
       (∃ f p u, Issues s 0 keepWord (dwPlan (s.eng (.execute 0)) keepWord) f p u) ∧ (tile 1 0).words.length = 1024 ∧
       (s.core 0).lastTaken = some 1 ∧ (s.core 0).tiles = [tile 1 0]) ∧
    (let s := tensor (desc 1 4 1) ((List.range 16).map bigTile) none 2
     Starts { exec := true } s (.execute 0) winoWord
       (taFields winoWord && winoWord.z 25 8 && decide (winoWord.tq ≤ 4) && wtOf winoWord != 0 && wtyOf winoWord == 2) ∧
       (∃ f p u, Issues s 0 winoWord (winoPlan (s.eng (.execute 0)) winoWord) f p u) ∧
       Supplied s 0 winoWord 2 ((List.range 16).map bigTile)) ∧
    (let s := tensor (desc 1 4 1) [bigTile 15] (some ⟨[], false, 15⟩) 2
     (winoPlan (s.eng (.execute 0)) winoWord).ok = true ∧ Arrived s 0 winoWord 2 [bigTile 15]) := by
  refine ⟨⟨by unfold Starts; decide +kernel, ?_, by decide +kernel, by decide +kernel, by decide +kernel⟩,
    ⟨by unfold Starts; decide +kernel, ?_, ?_⟩, ⟨by decide +kernel, ?_⟩⟩
  · exact issues_of _ _ _ _ (by decide +kernel)
  · exact issues_of _ _ _ _ (by decide +kernel)
  · exact ⟨by decide +kernel, by decide +kernel, ⟨[], by decide +kernel⟩, by decide +kernel⟩
  · exact ⟨by decide +kernel, by decide +kernel, ⟨[], by decide +kernel⟩, by decide +kernel⟩

theorem witness_tensor_waits :
    (let s := tensor (desc 6 4 1) [] none 0
     Starts { exec := true } s (.execute 0) keepWord (taFields keepWord && keepWord.z 25 8) ∧ (s.core 0).matRun = none ∧
       (Desc.of ((s.eng (.execute 0)).rdesc 0)).inputOk = false) ∧
    (let s := tensor (desc 1 0 1) [] none 0
     let d := Desc.of ((s.eng (.execute 0)).rdesc 0)
     d.inputOk = true ∧ d.over (s.core 0).limits = false ∧ d.e0 = 0) ∧
    (let s := tensor (desc 1 4 1) [] none 0
     (∃ f p u, Issues s 0 (nextWord 1) (mmaPlan (s.eng (.execute 0)) (nextWord 1)) f p u) ∧ wtOf (nextWord 1) ≠ 0 ∧ (s.core 0).tiles = []) ∧
    (let s := up.setCore 0 { state := 2, exec := { d := [(0, desc 1 4 1)] } }
     let d := Desc.of ((s.eng (.execute 0)).rdesc 0)
     let b := keepWord
     Starts { exec := true } s (.execute 0) b (b.z 23 0 && b.z 25 25 && decide (1 ≤ b.tq ∧ b.f 32 31 ≤ 1 ∧ b.f 29 26 ≤ 8)) ∧
       Starts { exec := true } s (.execute 0) b (b.z 23 0 && decide (1 ≤ b.tq ∧ b.f 32 31 ≤ 1 ∧ b.f 29 26 ≤ 8)) ∧
       d.inputOk = true ∧ d.over (s.core 0).limits = false ∧ d.frameOk = true ∧ 1 ≤ poolE d b ∧ upsF b * d.e0 ≤ 512 ∧ b.f 30 30 = 0 ∧
       (s.core 0).inbound b.tq = [] ∧ (s.core 0).bank = [] ∧ d.e0 ≠ 0 ∧ d.e2 ≠ 0 ∧
       MayIssue s 0 b (mmaPlan (s.eng (.execute 0)) b)) ∧
    (let s := tensor (desc 1 800 64) [] none 0
     let m := winoPlan (s.eng (.execute 0)) winoWord
     m.d.inputOk = true ∧ m.d.over (s.core 0).limits = false ∧ 8192 < m.frameRows * m.d.e2 * entryWords m.d.ty m.d.win) := by
  refine ⟨by unfold Starts; decide +kernel, by decide +kernel, ⟨?_, by decide +kernel, by decide +kernel⟩,
    by unfold Starts MayIssue; decide +kernel, by decide +kernel⟩
  exact issues_of _ _ _ _ (by decide +kernel)

theorem witness_pool_and_upsample :
    let s := tensor (desc 1 4 1) [] none 0
    let d := Desc.of ((s.eng (.execute 0)).rdesc 0)
    let b := keepWord
    Straight s (.execute 0) ∧ d.inputOk = true ∧ d.over (s.core 0).limits = false ∧ d.e0 ≠ 0 ∧ d.e2 ≠ 0 ∧ d.frameOk = true ∧
    Starts { exec := true } s (.execute 0) b (b.z 23 0 && decide (1 ≤ b.tq ∧ b.f 32 31 ≤ 1 ∧ b.f 29 26 ≤ 8)) ∧ 1 ≤ poolE d b ∧
    poolE d b ≤ 512 ∧ Starts { exec := true } s (.execute 0) b (b.z 23 0 && b.z 25 25 && decide (1 ≤ b.tq ∧ b.f 32 31 ≤ 1 ∧ b.f 29 26 ≤ 8)) ∧
    2 * d.e0 ≤ 512 ∧ b.f 30 30 = 0 ∧ (s.takeFrame 0 b.tq 1 d).1 = .frame [[[1, 1, 1, 1]]] false := by
  unfold Starts Straight; decide +kernel

theorem witness_element_results :
    let s := tensor 0 [] none 0
    let b (ty : Nat) := word 2 (ty * 2 ^ 43 + 1 * 2 ^ 15 + 1 * 2 ^ 10)
    let u (ty : Nat) := word 2 (ty * 2 ^ 43 + 1 * 2 ^ 10)
    Straight s (.execute 0) ∧ Apart 0 0 1 ∧
    (∀ ty ∈ [0, 1, 2], ∃ n ∈ [[0, 1, 2], [ty]], Starts { exec := true } s (.execute 0) (b ty)
      ((b ty).z 9 0 && n.contains ty && !((b ty).f 15 15 == 1 && !(b ty).z 24 21))) ∧
    (∀ ty ∈ [0, 1, 2], Starts { exec := true } s (.execute 0) (u ty)
      ((u ty).z 9 0 && [0, 1, 2].contains ty && (u ty).z 24 16 && !((u ty).f 15 15 == 1 && !(u ty).z 24 21))) := by
  unfold Starts Straight Apart; decide +kernel

theorem witness_element_folds :
    let s := (tensor 0 [] none 0).setAcc 0 0 (List.replicate 64 1) false
    (s.accRow 0 0).length = 64 := by decide +kernel

theorem witness_requantiser_results :
    (let s := tensor (desc 1 4 1) [] none 0
     let x := s.eng (.execute 0)
     let d := Desc.of (x.rdesc 0)
     let b (m : Nat) := word 2 (7 * 2 ^ 47 + m * 2 ^ 31 + 6 * 2 ^ 16)
     Straight s (.execute 0) ∧ d.fieldsOk = true ∧ d.ty ≤ 2 ∧ d.over (s.core 0).limits = false ∧ reqOk x (b 2) d = true ∧
       (s.core 0).emitted = 0 ∧ (s.core 0).queueEmpty 7 = true ∧ (s.core 0).queueEmpty 6 = true ∧
       (s.core 0).armedIn 7 = false ∧ (s.core 0).armedIn 6 = false ∧ ((s.core 0).queue 7).size = 0 ∧ ((s.core 0).queue 7).entries = [] ∧
       (∀ m ∈ [0, 1, 2], Starts { exec := true } s (.execute 0) (b m) (trFields m (b m))) ∧
       (let b := word 2 (1 * 2 ^ 47)
        Starts { exec := true } s (.execute 0) b (trFields 0 b) ∧ (s.core 0).queueEmpty 1 = false ∧ ((s.core 0).queue 1).outbound = false ∧
          reqOk x b d = true)) ∧
    (let s := up.setCore 0 { state := 2, exec := { d := [(0, desc 4 0 1)] },
                                queues := [(1, { entries := [{ words := [1, 2, 63], poison := false }] })] }
     let d := Desc.of ((s.eng (.execute 0)).rdesc 0)
     let b := word 2 (1 * 2 ^ 47 + 3 * 2 ^ 31)
     Starts { exec := true } s (.execute 0) b (trFields 3 b) ∧ Straight s (.execute 0) ∧ d.fieldsOk = true ∧
       d.over (s.core 0).limits = false ∧ d.e2 = 1 ∧ (s.core 0).loadBuf = [] ∧ ((s.core 0).queue 1).outbound = false ∧
       ((s.core 0).queue 1).entries = [{ words := [1, 2, 63], poison := false }]) := by
  unfold Starts Straight; decide +kernel

theorem witness_detection :
    let s := tensor 0 [] none 0
    let b := word 2 (1 * 2 ^ 22)
    Straight s (.execute 0) ∧ ((s.eng (.execute 0)).rs (b.f 26 22)).toNat = 1 ∧ Starts { exec := true } s (.execute 0) b (b.z 5 0) ∧
    Starts { exec := true } s (.execute 0) b (b.z 11 0) ∧ Apart 0 0 1 := by unfold Starts Straight Apart; decide +kernel

theorem witness_statistics_rotation_and_digest :
    (let s := (tensor 0 [] none 0).setAcc 0 0 (List.replicate 64 1) false
     let b := word 2 (1 * 2 ^ 20)
     Straight s (.execute 0) ∧ s.accPoison 0 0 = false ∧ Starts { exec := true } s (.execute 0) b (b.z 19 0) ∧
       Starts { exec := true } s (.execute 0) b (b.z 12 0 && decide (b.f 14 13 ≤ 2)) ∧
       Starts { exec := true } s (.execute 0) b (b.z 19 0 && b.z 47 43 && decide (b.f 49 48 ≤ 1)) ∧ Apart 0 0 2) ∧
    (let s := core0 {} {}
     Starts { exec := true } s (.execute 0) (word 2 0) ((word 2 0).z 49 0) ∧
       (let b := word 2 (1 * 2 ^ 48)
        Starts { exec := true } s (.execute 0) b (b.f 49 48 == 1 && b.z 42 0) ∧ (s.core 0).digestPoison = false ∧
          (s.core 0).digest = ((s.eng (.execute 0)).rdesc 0).extractLsb' 0 64 ∧
          (s.setCore 0 { state := 2, digest := 1 }).log.length < 64)) := by unfold Starts Straight Apart; decide +kernel

/-! ### Cores, pockets, stores and the rail -/

/-- The device with an audit of core `c`. -/
def audited (s : State) (c : Nat) (running : Bool) : State :=
  { s with tst := { s.tst with audit := some { core := c, forced := false, asked := false, since := 0, seq := 0, running := running } } }

theorem witness_core_requests :
    let at_ (n : Nat) : State := up.setCore 0 { state := n }
    (∀ n ∈ [0, 1, 2, 3, 4, 5], Quiet (at_ n) ∧ (at_ n).underAudit 0 = false ∧ ((at_ n).core 0).state = n ∧
      ((at_ n).core 0).fetch.wait = .none ∧ ((at_ n).core 0).exec.wait = .none) ∧
    (let s := core0 { wait := .parked 0x50 (word 1 0) } {}
     Quiet s ∧ s.underAudit 0 = false ∧ (s.core 0).state = 2 ∧ (s.core 0).fetch.wait = .parked 0x50 (word 1 0) ∧
       (s.core 0).fetch.stopped = false ∧ (s.core 0).fetch.got = none) ∧ (audited State.reset 0 false).underAudit 0 = true := by
  decide +kernel

theorem witness_core_configuration :
    Quiet State.reset ∧ State.reset.configurable 0 = true ∧ State.reset.underAudit 0 = false ∧
    (let v : Word := BitVec.ofNat 32 (2 ^ 15 + 10239)
     v.getLsbD 15 = true ∧ v.toNat % 16384 ≤ 10239) ∧
    (let v : Word := BitVec.ofNat 32 (2 ^ 15 + 10240)
     v.getLsbD 15 = true ∧ 10239 < v.toNat % 16384) ∧
    (0 : Word).getLsbD 15 = false ∧ (core0 {} {}).configurable 0 = false := by decide +kernel

theorem witness_slot_cuts_and_pocket_port :
    (let s := ringed State.reset
     let v : Word := BitVec.ofNat 32 (2 ^ 31)
     let u := s.plainWrite .RING_CUT (v &&& 0x7FF) 0
     Quiet s ∧ v.getLsbD 31 = true ∧ s.bit F.RING_CUT_BUSY 0 = false ∧ (s.ring 0 (u.fld F.RING_CUT_RING 0)).valid = true ∧
       u.fld F.RING_CUT_SLOT 0 < (s.ring 0 0).slots ∧ countStore 0x1000 = true ∧ s.storeOk 0x1004 1 = true) ∧
    (let s := up.setCore 0 { cut := some [0x1000, 0x1004] }
     Quiet s ∧ (s.core 0).cut = some [0x1000, 0x1004] ∧ s.storeOk 0x1000 1 = true ∧
       (∀ a ∈ [0x1000, 0x1004], countStore a = true ∧ s.storeOk a 1 = true ∧ s.opens a = true ∧ s.portFree a = true) ∧
       s.stores.late = [] ∧ s.tst.injection = none ∧ s.flips = []) ∧
    State.reset.pktOpen 0 = true ∧ (core0 {} {}).pktOpen 0 = false ∧ State.reset.underAudit 0 = false ∧ pktSourceOk 0 8192 = true ∧
    pktSourceOk (storeBase 2) 1 = false ∧
    (let s := up.setCore 0 { load := some (0x0BFFFFF8, 1) }
     (s.core 0).load = some (0x0BFFFFF8, 1) ∧ pktSourceOk 0x0BFFFFF8 1 = true ∧ s.opens 0x0BFFFFF8 = true ∧
       s.storeOk 0x0BFFFFF8 2 = true ∧ s.flips = [] ∧ s.poison = []) := by decide +kernel

theorem witness_waiting_engines :
    (∀ op ∈ [0x28, 0x2A, 0x40, 0x42, 0x48, 0x49, 0x4A, 0x4B, 0x50, 0x58, 0x59, 0x5A, 0x80, 0x81, 0x82, 0x83, 0x88, 0x89, 0x98],
      let s := core0 { wait := .blocked op (word 1 0) } { wait := .blocked op (word 2 0) }
      Quiet s ∧ s.mayResume (.fetch 0) = true ∧ s.mayResume (.execute 0) = true ∧ (s.eng (.fetch 0)).wait = .blocked op (word 1 0)) ∧
    (let s := core0 { wait := .blocked 0x42 (word 1 0) } {}
     ((s.core 0).stream 0).cur = none ∧
       Starts { fetch := true } (s.updEng (.fetch 0) (fun y => { y with wait := .none })) (.fetch 0) (word 1 0) ((word 1 0).z 45 0)) ∧
    (let s := core0 { wait := .parked 0x50 (word 1 0) } {}
     let r : OpResult := { old := 5, flag := true, poison := false }
     let t := { s with stores := { s.stores with results := [(.fetch 0, r)] } }
     (t.eng (.fetch 0)).wait = .parked 0x50 (word 1 0) ∧ (t.eng (.fetch 0)).withdraw = false ∧
       t.stores.results.find? (fun v => v.1 == .fetch 0) = some (.fetch 0, r) ∧ r.poison = false ∧ s.stores.results = [] ∧
       t.portFree (t.watchAddr (.fetch 0) 0x50 (word 1 0)) = true) ∧
    (let s := core0 { wait := .parked 0x4A (word 1 0), withdraw := true } {}
     (s.eng (.fetch 0)).withdraw = true ∧ (s.eng (.fetch 0)).expired = false ∧ s.stores.results = [] ∧
       s.portFree (s.watchAddr (.fetch 0) 0x4A (word 1 0)) = true) ∧
    (let s := ringed (core0 { wait := .listFull 0x4A (word 1 0) } {})
     (s.eng (.fetch 0)).wait = .listFull 0x4A (word 1 0) ∧ (s.eng (.fetch 0)).stopped = false ∧ s.slotOk (s.ring 0 0) 0 0x1000 = true ∧
       (slotOf (s.eng (.fetch 0)) (word 1 0)) = (0, 0) ∧ (s.ring 0 0).fill 0 = 0x1000 ∧
       s.opens 0x1000 = true ∧ s.portFree 0x1000 = true ∧ s.flips = [] ∧ s.poison = [] ∧ s.rawWord 0x1000 = 0) ∧
    (∀ w ∈ [Wait.parked 0x4A (word 1 0), .listFull 0x4A (word 1 0)],
     let s := { (core0 { wait := w, expired := true, since := some 0 } {}).setFld F.SLOT_WDOG_US 1 0 with time := 1000 }
     (s.eng (.fetch 0)).withdraw = false ∧ (s.eng (.fetch 0)).expired = true ∧ Straight s (.fetch 0) ∧ (s.eng (.fetch 0)).got = none ∧
       s.slotExpired 0 = true ∧ { s with time := 999 }.slotExpired 0 = false) := by unfold Starts Straight; decide +kernel

theorem witness_port_accesses :
    Quiet up ∧ storeOf 0x0BFFFF00 = some 0 ∧ up.storeOk 0x0BFFFF00 64 = true ∧ up.bit F.STO_STATUS_INIT_DONE = true ∧
    up.flips = [] ∧ up.poison = [] ∧ up.tst.injection = none ∧ up.stores.late = [] ∧ up.stores.watches = [] ∧
    up.storeOk 0x0BFFFFFC 1 = true ∧ up.storeOk 0x0BFFFFFC 2 = false ∧ storeOf 0x0C000000 = none ∧
    up.opens 0x0BFFFF00 = true ∧ up.portFree 0x0BFFFF00 = true ∧ up.opens 0x0BFFFFFC = true ∧ up.portFree 0x0BFFFFFC = true ∧
    State.reset.opens 0x0BFFFF00 = false ∧ up.stores.waits = [] ∧
    (let r : SysAccess := { cls := 1, member := 0, addr := 0x0BFFFF00, op := some (.read 1) }
     let s : State := { up with stores := { up.stores with bridge := [r], slots := [(slotKey 0 1, r)] } }
     s.opens (storeBase 4) = true ∧ s.stores.bridge = [r] ∧ s.opens (storeBase 0) = true ∧ s.stores.slots.has (slotKey 0 1) = true ∧
       s.stores.slots.has (slotKey 0 0) = false ∧ (s.stores.lastClass.look 0 4 + 1 + 1) % 5 = 1) := by decide +kernel

theorem witness_store_upkeep :
    Quiet State.reset ∧ State.reset.bit F.STO_STATUS_INIT_DONE = false ∧
    (let s := up.setFld F.STO_CTRL_SCRUB_EN 1
     (s.fld F.STO_CTRL_SCRUB_EN).testBit 0 = true ∧ s.bit F.STO_STATUS_INIT_DONE = true ∧ s.tst.injection = none ∧
       { s with time := 10000000 }.scrubDue 0 95 = true ∧ s.scrubFrom 0 (s.scrubAt 0 95).2 = some 0 ∧ (95 : Nat) < octets 0) := by decide +kernel

theorem witness_retention_bands :
    Quiet up ∧ up.stores.bandMoves.has 0 = false ∧
    (let s := { up.setBand 0 0 2 with stores := { bandMoves := [(0, 0)] } }
     s.stores.bandMoves.has 0 = true ∧ s.stores.bandMoves.look 0 0 < 3 ∧ s.bandState 0 0 = 2) ∧
    (let s := { up with stores := { bandMoves := [(0, 2)] } }
     s.stores.bandMoves.look 0 0 = 2 ∧ s.bandState 0 0 = 0) := by decide +kernel

theorem witness_retention_bands_none_waits :
    ({ up with stores := { bandMoves := [(0, 2)] } } : State).noneWaits := ⟨fun _ _ => rfl, by decide +kernel⟩

theorem witness_speed_and_rail :
    (let s := State.reset.setFld F.FAB_CTRL_MON_EN 1
     Quiet s ∧ s.coreOn 31 = true ∧ s.bit F.FAB_CTRL_MON_EN = true) ∧
    (let s := ((State.reset.setFld F.FAB_CTRL_BELAY_EN 1).setFld F.AVS_CTRL_EN 1).setFld F.AVS_CTRL_MODE 1
     (let s : State := { s with fab := { rail := some 850 } }
      s.belayCommands = true ∧ s.avsFree = true ∧ s.fab.active = [] ∧ s.fab.rail = some 850 ∧ s.wantsRaise = false ∧ s.bit F.FAB_STATUS_LOW_INHIBIT = false ∧
        s.passed s.fab.lastCmd s.lowerInt = true ∧ s.passed s.fab.lastRaise s.lowerHold = true ∧ s.railLimits.1 + 5 ≤ 850) ∧
     (let s : State := { s with fab := { rail := some 550 } }
      s.belayCommands = true ∧ s.avsFree = true ∧ s.wantsRaise = true ∧ s.passed s.fab.lastCmd s.raiseInt = true ∧ 550 < s.railLimits.2)) := by
  decide +kernel

theorem witness_power_buses :
    (let s := ((State.reset.setFld F.AVS_CTRL_EN 1).setFld F.AVS_CTRL_MODE 0).setFld F.AVS_POLL_INTERVAL 1
     let late : State := { s with time := 1000 }
     Quiet s ∧ s.bit F.AVS_CTRL_EN = true ∧ s.bit F.AVS_CTRL_MODE = false ∧ s.avsFree = true ∧ s.fab.deferred = none ∧
       s.fab.readPend = false ∧ s.pollDue = false ∧ Quiet late ∧ late.pollDue = true ∧ late.avsFree = true ∧ late.fab.deferred = none) ∧
    (∀ n ∈ [1, 4], let s : State := { State.reset with fab := { cmd := some { sel := 0, mv := 700, kind := 0, attempts := n, at_ := 0, before := none } } }
      Quiet s ∧ s.fab.cmd = some { sel := 0, mv := 700, kind := 0, attempts := n, at_ := 0, before := none } ∧ s.fab.readback = false) ∧
    (let p : PmbXfer := { addr := 1, cmd := 2, read := true, len := 4, data := 0, speed := 100, pec := true }
     let s : State := { State.reset with fab := { readback := true, pmb := some p } }
     s.fab.cmd = none ∧ s.fab.readback = true ∧ s.fab.pmb.isSome = true ∧ s.fab.deferred = none ∧ s.fab.readPend = false ∧ p.len ≤ 4) ∧
    (let s := State.reset.setFld F.PMB_CTRL_EN 1
     s.bit F.PMB_STATUS_BUSY = false ∧ s.bit F.PMB_CTRL_EN = true) := by decide +kernel

/-! ### Frames, lines, inputs, commits and outputs -/

theorem witness_calibration_and_temperature :
    Quiet State.reset ∧ (1 : Word).getLsbD 0 = true ∧ (2 : Word).getLsbD 1 = true ∧ (2 : Word).getLsbD 0 = false ∧
    (let reading : Int := 960 - State.reset.sfld F.CAL_FGT_TTRIM 0
     960 ≤ reading + State.reset.sfld F.CAL_FGT_TTRIM 0 ∧ ¬ (960 ≤ reading - 1 + State.reset.sfld F.CAL_FGT_TTRIM 0)) := by decide +kernel

/-- The device with HyperRAM that is ready. -/
def hyper (s : State) : State := (s.setFld F.HYP_CFG_CAP 1).setFld F.HYP_STATUS_READY 1

/-- Raster `r` runs with EN set and 1,080 active lines. -/
def scanning (s : State) (r : Nat) : State :=
  ((((s.setFld F.TMG_STATUS_RUNNING 1 r).setFld F.TMG_CTRL_EN 1 r).setFld F.TMG_V_VACT 1080 r).take .TMG_V r)

/-- Layer 1 shows stream 0 in 640 × 480 pixels from line 0. -/
def layered (s : State) : State :=
  (((s.setFld F.LAY_CTRL_EN 1 1).setFld F.LAY_CTRL_KIND 1 1).setFld F.LAY_SIZE_W 640 1).setFld F.LAY_SIZE_H 480 1 |>.take .LAY_CTRL 1
    |>.take .LAY_SIZE 1

theorem witness_frame_boundaries :
    (let s := scanning (State.reset.setFld F.TST_CTRL_AUTO_AUDIT 0) 0
     Calm s ∧ s.running 0 = true ∧ (s.raster 0).pend = none ∧ s.pathRaster 0 = 0 ∧ s.pathRaster 1 = 0) ∧
    (let s := (State.reset.setFld F.TST_CTRL_AUTO_AUDIT 0).setFld F.TMG_CTRL_EN 1
     let t : State := { s with rasters := [(0, { pend := some [] })] }
     Calm t ∧ t.running 0 = false ∧ (t.raster 0).pend.isSome = true ∧ t.bit F.TMG_CTRL_EN = true ∧ (s.raster 0).pend.isSome = false ∧
       (t.raster 0).startAt = none ∧
       (let u : State := { s with rasters := [(0, { pend := some [], startAt := some 5 })] }
        5 ∈ (u.raster 0).startAt ∧ u.nt < 5)) := by
  unfold Calm; decide +kernel

theorem witness_line_events :
    (let s := scanning State.reset 0
     Quiet s ∧ s.running 0 = true ∧ 1079 < s.frc F.TMG_V_VACT 0 ∧ s.frc F.TMG_V_VACT 0 ≤ 1080 ∧ s.running 1 = false ∧
       s.bit F.INP_CTRL_EN 0 = false ∧ s.cmp.lines.has 5 = false) ∧
    (let s := (layered (scanning State.reset 0)).setFld F.INP_CTRL_EN 1 0
     let s : State := { s with paths := [(0, { started := true, height := 480 })] }
     s.pathRect 0 = some (0, 0, 640, 480) ∧ s.running (s.pathRaster 0) = true ∧ s.bit F.INP_CTRL_EN 0 = true ∧ (s.path 0).started = true ∧
       (s.setPath 0 {}).pathRect 0 = some (0, 0, 640, 480) ∧ ((s.setPath 0 {}).path 0).started = false) ∧
    (let s : State := { scanning State.reset 0 with cmp := { lines := [(5, [{ layer := 1, stream := some 0, x := 0, px := [] }])] } }
     s.running 0 = true ∧ s.cmp.lines.has 5 = true) := by decide +kernel

theorem witness_stripe_and_surface_lines :
    (let s := up
     let r := s.erSlot 0 0 0
     s.countOk r.fill = true ∧ s.flips.look r.fill 0 = 0 ∧ s.poison.look r.fill false = false ∧ s.stripeForced 0 0 = true ∧
       2 ^ 31 ≤ (s.rawWord r.fill - r.need).toNat ∧
       ((s.putWord r.fill r.need).rawWord r.fill - r.need).toNat < 2 ^ 31) ∧
    (let s := ((State.reset.setFld F.TMG_STATUS_RUNNING 1 0).setFld F.LAY_CTRL_EN 1 1).setFld F.LAY_CTRL_FORMAT 3 1
     let s := ((s.setFld F.LAY_SIZE_W 640 1).setFld F.LAY_SIZE_H 480 1).setFld F.LAY_ADDR_ADDR (hyperBase / 256) 1
     let s := hyper (((s.take .LAY_CTRL 1).take .LAY_SIZE 1).take .LAY_ADDR 1)
     Quiet s ∧ s.running 0 = true ∧ s.isSurface 1 = true ∧ 479 < s.frc F.LAY_SIZE_H 1 / s.layScale 1 ∧ s.frc F.LAY_CTRL_UBSAL 1 = 0 ∧
       s.frc F.LAY_CTRL_FORMAT 1 < 4 ∧ s.inHyper (256 * s.frc F.LAY_ADDR_ADDR 1) (4 * 640) = true ∧ s.isSurface 0 = false ∧
       (s.surfOf 1).gone = []) := by decide +kernel

theorem witness_flips_and_announcements :
    (let s := ((scanning State.reset 0).setFld F.TMG_CTRL_LOCK 2).take .TMG_CTRL
     Quiet s ∧ s.running 0 = true ∧ s.frc F.TMG_CTRL_LOCK 0 = 2 ∧ (s.flipBase 0 : Int) ≤
       ({ s with time := 10000000000 }.ntInt - (min (1000 * s.fld F.ANN_CTRL_WAIT_US) (s.frc F.FLIP_NUM_NS 0 / (2 * s.flipDen 0)) : Nat))) ∧
    (let f := { frame 9 with data := List.replicate 24 0 }
     let s : State := { State.reset with net := { ports := [(0, { delivered := [f] })] } }
     (s.port 0).delivered = [f] ∧ f.data.length = 24 ∧ f.src.toNat ≠ s.chip ∧ f.src.toNat ≤ 11 ∧ (s.fld F.ANN_LOST_LOST).testBit 1 = false ∧
       ((s.setFld F.ANN_LOST_LOST 2).fld F.ANN_LOST_LOST).testBit 1 = true) ∧
    (let s := ((State.reset.setFld F.ANN_WATCH_CHIPS 3).setFld F.ANN_STAT_SEEN 1 0).setFld F.ANN_STAT_SEEN 1 1
     let watched (j : Nat) := (s.fld F.ANN_WATCH_CHIPS).testBit j = true ∧ j ≠ s.chip ∧ s.bit F.ANN_STAT_SEEN j = true ∧
       (s.fld F.ANN_LOST_LOST).testBit j = false
     watched 1 ∧ ¬ watched 0 ∧ ¬ watched 2) := by decide +kernel

/-- 640 × 480 at 60 Hz, RGB with 8 bits. -/
def vga : VideoFormat := { hact := 640, vact := 480, rateMilliHz := 60000, pixelKhz := 25175, enc := 0, bpc := 0, dsc := false }

theorem witness_sinks :
    (let s := State.reset.setFld F.SNK_CTRL_EN 1 0
     Quiet s ∧ s.bit F.SNK_CTRL_EN 0 = true ∧ 1 ≤ min 3 (s.fld F.SNK_CTRL_MAX_RATE 0) + 1 ∧ s.bit F.SNK_CTRL_EN 1 = false ∧
       s.bit F.SNK_STATUS_RATE 0 = false ∧ { s with time := 5000000 }.sinkQuiet 0 = true ∧ { s with time := 4999999 }.sinkQuiet 0 = false ∧
       s.bit F.SNK_STATUS_ENCRYPTED 0 = false ∧ (s.setFld F.SNK_CTRL_HDCP_EN 0 0).bit F.SNK_CTRL_HDCP_EN 0 = false ∧
     let s := s.setFld F.SNK_STATUS_RATE 1 0
     s.bit F.SNK_STATUS_RATE 0 = true ∧ (s.setFld F.SNK_CTRL_HDCP_EN 1 0).bit F.SNK_CTRL_HDCP_EN 0 = true ∧
     let s : State := { s with sinks := [(0, { fmt := some vga, inFrame := true, nextLine := 479 })] }
     (s.sink 0).fmt = some vga ∧ s.accepts 0 vga = true ∧ (s.sink 0).inFrame = true ∧ (s.sink 0).nextLine = 479 ∧
       479 + 1 = vga.vact.toNat ∧ (s.sink 0).bad = false) := by decide +kernel

theorem witness_input_lines :
    (let s := ((up.setFld F.INP_CTRL_EN 1 0).setFld F.INP_CTRL_TENS 1 0).setFld F.INP_CTRL_MODE 0 0
     let s := (s.setFld F.INP_RING_BASE_ADDR (storeBase 1 / 256) 0).setFld F.INP_COUNT_BASE_ADDR (storeBase 1 / 4) 0
     let s := s.setFld F.INP_RING_CFG_D 1 0
     let h : HeldLine := { line := 0, slot := 0, comps := [], users := [0] }
     let s : State := { s with sinks := [(0, { fmt := some vga, held := [h] })] }
     Quiet s ∧ s.bit F.INP_CTRL_EN 0 = true ∧ s.tensOn 0 = true ∧ 0 ∉ (s.path 0).written ∧ s.bit F.INP_CTRL_MODE 0 = false ∧
       s.rowOf 0 0 = some 0 ∧ s.heldFor 0 0 = some h ∧ s.storeOk (s.rowFill 0 0 + 4) 1 = true ∧ s.flips = [] ∧ s.poison = [] ∧
       (s.rawWord (s.rowFill 0 0 + 4) - BitVec.ofNat 32 (0 / s.ringSlots 0 * max 1 (s.fld F.INP_RING_CFG_D 0))).toNat < 2 ^ 31) ∧
    (let s : State := { State.reset with mot := [(0, { hold := true })], time := 1000000000000 }
     s.holdOver 0 = true ∧ (s.motOf 0).expired = false ∧ s.holdOver 1 = false) := by decide +kernel

theorem witness_commits_and_tables :
    (let s := State.reset
     Quiet s ∧ (let u := s.plainWrite .CMP_COMMIT ((0x80000000 : Word) &&& 0x3FFFFFFF)
       u.commitOk (u.fld F.CMP_COMMIT_MASK) (u.bit F.CMP_COMMIT_EPOCH) = true) ∧
       (let s := s.setFld F.CMP_STATUS_PENDING 1
        s.commitOk 0 false = false) ∧
       s.fld F.LUT_SEL_LUT < 3 ∧ s.fld F.LUT_SEL_COMP < 3 ∧ s.fld F.LUT_SEL_INDEX ≤ 1024 ∧ s.fld F.LUT_SEL_BANK = s.lutBank (s.fld F.LUT_SEL_LUT) ∧
       (let s := s.setFld F.LUT_SEL_BANK 1
        s.fld F.LUT_SEL_BANK ≠ s.lutBank (s.fld F.LUT_SEL_LUT)) ∧
       ((0x80000000 : Word).getLsbD 31 = true ∧ s.bit F.CV_STATUS_LOAD_BUSY = false)) ∧
    (let s : State := { hyper up with cmp := { cvLoad := some { src := hyperBase, block := 262143, blocks := 1 } } }
     s.cmp.cvLoad = some { src := hyperBase, block := 262143, blocks := 1 } ∧ s.inHyper hyperBase 256 = true ∧ 262143 + 1 ≤ 262144 ∧
       s.opens (storeBase 3 + 256 * 262143) = true ∧ s.portFree (storeBase 3 + 256 * 262143) = true ∧ s.storeOk (storeBase 3 + 256 * 262143) 64 = true ∧
       s.tst.injection = none ∧ s.stores.late = [] ∧ s.stores.watches = [] ∧ s.inHyper hyperBase 0 = true) := by decide +kernel

/-- 640 × 480 in a raster of 800 × 525, 25.175 MHz. -/
def timed (s : State) (r : Nat) : State :=
  ([(F.TMG_H_HACT, 640), (F.TMG_H_HTOTAL, 800), (F.TMG_HS_HFP, 16), (F.TMG_HS_HSYNC, 96), (F.TMG_V_VACT, 480), (F.TMG_V_VTOTAL, 525),
    (F.TMG_VS_VFP, 10), (F.TMG_VS_VSYNC, 2), (F.TMG_PCLK_KHZ, 25175)] : List (RegField × Nat)).foldl (fun t f => t.setFld f.1 f.2 r) s

theorem witness_output_control :
    (let u := (timed State.reset 0).plainWrite .TMG_CTRL (((0x80000001 : Word)) &&& 0x7FFFFFFF) 0
     Quiet State.reset ∧ u.timingOk 0 = true ∧ u.periodOk 0 = true ∧ u.bit F.TMG_CTRL_EN 0 = true) ∧
    (let u := (timed State.reset 0).plainWrite .TMG_CTRL (((0x80000000 : Word)) &&& 0x7FFFFFFF) 0
     u.timingOk 0 = true ∧ u.periodOk 0 = true ∧ u.bit F.TMG_CTRL_EN 0 = false ∧ (timed State.reset 0).running 0 = false) ∧
    ((State.reset.setFld F.TMG_H_HACT 0 0).timingOk 0 = false) ∧
    (let s := State.reset.setFld F.SRC_CTRL_EN 1 0
     s.bit F.SRC_CTRL_EN 0 = true ∧ 1 ≤ min 3 (s.fld F.SRC_CTRL_MAX_RATE 0) + 1 ∧ (s.setFld F.SRC_STATUS_RATE 1 0).bit F.SRC_STATUS_RATE 0 = true ∧
       s.bit F.SRC_CTRL_EN 1 = false) := by decide +kernel

/-! ### The network -/

/-- The device with Pulet, and port `p` UP. -/
def linked (s : State) (p : Nat) : State :=
  ((((s.setFld F.PLT_CTRL_EN 1).setFld F.PRT_CTRL_EN 1 p).setFld F.PRT_STATUS_PHY_UP 1 p).setFld F.PRT_FI_CTRL_EN 0 p).setFld F.PRT_STATUS_PULET 2 p

/-- Chip `d` is reached by port `p`. -/
def routed (s : State) (d p : Nat) : State := (s.setFld F.PLT_ROUTE_VALID 1 d).setFld F.PLT_ROUTE_PORT p d

/-- Port `p` has `f` to perform. -/
def delivered (s : State) (p : Nat) (f : Frame) : State := s.setPort p { s.port p with delivered := [f] }

theorem witness_hop_reliability :
    (let s := linked State.reset 0
     let f := { frame 1 with crc := frameCheck (frame 1) }
     PortOpen s 0 ∧ s.bit F.PLT_CTRL_EN = true ∧ s.pulet 0 = 2 ∧ (s.port 0).waiting = [] ∧ f.seq = (s.port 0).rxSeq ∧ s.noBuffer 0 f = false ∧
       f.hostDst = false ∧ f.dst.toNat = s.chip ∧ f.dst ≠ 15 ∧ f.crc = frameCheck f ∧ f.mtype.toNat ∈ actingTypes) ∧
    (let s := routed (linked (linked State.reset 0) 1) 2 1
     let f := { frame 1 with dst := 2, hops := 1 }
     PortOpen s 0 ∧ PortOpen s 1 ∧ s.pulet 1 = 2 ∧ (s.port 1).waiting = [] ∧ (s.port 1).retx.length < s.txWindow 1 ∧ f.hops ≠ 0 ∧
       f.hostDst = false ∧ f.dst.toNat ≠ s.chip ∧ s.bit F.PLT_ROUTE_VALID f.dst.toNat = true ∧ s.fld F.PLT_ROUTE_PORT f.dst.toNat = 1) ∧
    (let f := frame 1
     let full := List.replicate 32 { frame 1 with data := List.replicate 8192 0 }
     let s := linked (State.reset.setPort 0 { delivered := full }) 0
     s.noBuffer 0 f = true) ∧
    (let s := linked (State.reset.setPort 0 { retx := [(frame 1, 0)], rounds := 0 }) 0
     let late : State := { s with time := 10000000000 }
     PortOpen s 0 ∧ s.pulet 0 = 2 ∧ late.retxDue 0 = true ∧ s.retxDue 0 = false ∧ (s.port 0).rounds < max 1 (s.fld F.PRT_LINK_RETRY_LIM 0)) ∧
    (let s := linked (State.reset.setPort 0 { retx := [(frame 1, 0)], rounds := 1000 }) 0
     let s : State := { s with time := 10000000000 }
     PortOpen s 0 ∧ s.retxDue 0 = true ∧ max 1 (s.fld F.PRT_LINK_RETRY_LIM 0) ≤ (s.port 0).rounds ∧ s.log.length < 64) := by unfold PortOpen; decide +kernel

theorem witness_port_links :
    (let s := State.reset.setFld F.PRT_CTRL_EN 1 0
     Quiet s ∧ s.bit F.PRT_CTRL_EN 0 = true ∧ s.bit F.PRT_STATUS_PHY_UP 0 = false ∧ (s.fld F.PRT_CTRL_SPEEDS 0).testBit 0 = true ∧ s.pulet 0 ≠ 1) ∧
    (let s := ((linked State.reset 0).setFld F.PRT_STATUS_PULET 1 0).setPort 0 { ackSent := true }
     PortOpen s 0 ∧ s.bit F.PRT_CTRL_EN 0 = true ∧ s.bit F.PRT_STATUS_PHY_UP 0 = true ∧ s.bit F.PLT_CTRL_EN = true ∧ s.pulet 0 = 1 ∧
       (s.port 0).ackSeen = false ∧ (s.port 0).ackSent = true ∧ (s.port 0).waiting = [] ∧ s.lapsed (s.port 0).syncAt 10000 = true ∧
       s.lapsed (some 1) 10000 = true ∧ { s with time := 10000 }.lapsed (some 1) 10000 = false) ∧
    (let s := ((linked State.reset 0).setFld F.PRT_STATUS_PULET 1 0).setPort 0 { ackSeen := true }
     PortOpen s 0 ∧ s.pulet 0 = 1 ∧ (s.port 0).ackSeen = true ∧ (s.port 0).ackSent = false) ∧ State.reset.bit F.PRT_CTRL_EN 1 = false := by
  unfold PortOpen; decide +kernel

/-- The bytes that a port of the reset device sends for a frame, without the FCS. -/
def wire (w : WireFrame) : List Byte :=
  let l := ((State.reset.sentFrom 0 w).bytes).getD []
  l.take (l.length - 4)

theorem test_sort_data :
    let f := { frame 1 with seq := 3, ackn := 4, hops := 2, tag := 7, win := 5, gen := 6, offset := 0x123456789A, aux := 9, data := [1, 2, 3, 4] }
    State.reset.sortFrame 0 (wire (.data f)) = some (.data f) := by decide +kernel
theorem test_sort_control : State.reset.sortFrame 0 (wire (.ack 5)) = some (.ack 5) ∧ State.reset.sortFrame 0 [] = none ∧
    State.reset.sortFrame 0 (List.replicate 12 0 ++ [0x12, 0x34] ++ List.replicate 46 0) = some .other := by decide +kernel
theorem test_sort_sync : (match State.reset.sortFrame 0 (List.replicate 12 0 ++ [0x88, 0xF7, 0x10, 2, 0, 44] ++ List.replicate 42 0) with
    | some (.ptpSync m) => m.domain == 0 && !m.twoStep
    | _ => false) = true := by decide +kernel

theorem witness_fault_injection :
    (let s := (State.reset.setFld F.PRT_FI_CTRL_EN 1 0).setFld F.PRT_FI_SEL_N 1 0
     Quiet s ∧ s.bit F.PRT_FI_CTRL_EN 0 = true ∧ s.bit F.PRT_FI_CTRL_DIR 0 = false ∧ WireFrame.kind (.data (frame 1)) ≤ s.fld F.PRT_FI_CTRL_MATCH 0 ∧
       s.bit F.PRT_FI_SEL_MODE 0 = false ∧ s.fld F.PRT_FI_LIMIT_COUNT 0 = 0 ∧ (s.port 0).fiHeld = [] ∧ s.fld F.PRT_FI_CTRL_ACTION 0 < 3 ∧ (WireFrame.data (frame 1)).payload.isEmpty = true ∧
       (WireFrame.data { frame 1 with data := [1, 2, 3, 4] }).payload.isEmpty = false ∧
       ((s.port 0).fiCount + 1) % max 1 (s.fld F.PRT_FI_SEL_N 0) = 0 ∧
       ((s.port 0).fiCount + 1) % max 1 ((s.setFld F.PRT_FI_SEL_N 2 0).fld F.PRT_FI_SEL_N 0) ≠ 0) ∧
    (let h : Held := { rx := false, frame := .data (frame 1), bad := none, frames := 0, until_ := some 5 }
     let s := (linked State.reset 0).setPort 0 { fiHeld := [h, { h with until_ := none }] }
     s.bit F.PRT_STATUS_PHY_UP 0 = true ∧ (∀ h ∈ (s.port 0).fiHeld, h.rx = false ∧ h.frame.kind ≤ 1) ∧ h.until_.isSome = true ∧
       (∀ g ∈ (s.port 0).fiHeld, g.frames = 0) ∧ s.reached 5 = false ∧ { s with time := 5 }.reached 5 = true) := by decide +kernel

/-- Window `w` is OPEN at its first generation, over the first `n` pages of the input store, for every chip and every right. -/
def windowed (s : State) (w n : Nat) : State :=
  ((((s.setFld F.WIN_STATUS_STATE 1 w).setFld F.WIN_BASE_LO_ADDR (storeBase 1 / 4096) w).setFld F.WIN_SIZE_PAGES n w).setFld
    F.WIN_PEERS_PEERS 0xFFF w).setFld F.WIN_PEERS_RIGHTS 7 w

theorem witness_windows :
    (let s := (windowed State.reset 0 1).setFld F.WIN_STATUS_STATE 0 0
     Quiet s ∧ s.fld F.WIN_STATUS_STATE (s.fld F.WIN_SEL_WIN) = 0 ∧ s.winSize (s.fld F.WIN_SEL_WIN) ≠ 0 ∧
       s.inMemory (s.winBase (s.fld F.WIN_SEL_WIN)) (s.winSize (s.fld F.WIN_SEL_WIN)) = true ∧ (1 : Word).getLsbD 0 = true ∧ (1 : Word).getLsbD 1 = false) ∧
    (let s := (State.reset.setFld F.WIN_SIZE_PAGES 1 0).setFld F.WIN_BASE_LO_ADDR (0x0C000000 / 4096) 0
     s.inMemory (s.winBase 0) (s.winSize 0) = false) ∧
    (let s := windowed State.reset 0 1
     s.fld F.WIN_STATUS_STATE (s.fld F.WIN_SEL_WIN) = 1 ∧ (s.setFld F.WIN_STATUS_STATE 2 0).fld F.WIN_STATUS_STATE 0 = 2 ∧
       s.fld F.WIN_STATUS_GEN 0 = (frame 1).gen.toNat ∧ (frame 1).src.toNat ≤ 11 ∧ (s.fld F.WIN_PEERS_PEERS 0).testBit 1 = true ∧
       (s.fld F.WIN_PEERS_RIGHTS 0).testBit 0 = true ∧ ((s.setFld F.WIN_PEERS_RIGHTS 6 0).fld F.WIN_PEERS_RIGHTS 0).testBit 0 = false ∧
       (frame 1).offset.toNat + 4096 ≤ s.winSize 0 ∧ s.winSize 0 < (frame 1).offset.toNat + 4097) := by decide +kernel

/-- A request of chip 1 that waits at port 0, and whose answer leaves by it. -/
def asked (f : Frame) : State := delivered (windowed (routed (linked up 0) 1 0) 0 1) 0 f

theorem witness_window_requests :
    (∀ m ∈ [1, 3, 4, 6, 7], let s := asked (frame m)
      Quiet s ∧ (s.port 0).delivered = [frame m] ∧ Reaches s (frame m) 0 ∧ (frame m).mtype = BitVec.ofNat 8 m) ∧
    (let f := { frame 1 with data := [1, 2, 3, 4] }
     let s := asked f
     s.windowStatus f 0 4 = 0 ∧ s.servedNet (s.winBase 0) 4 = true ∧ s.tst.injection = none ∧ s.stores.late = [] ∧ s.stores.watches = [] ∧
       s.flips = [] ∧ s.poison = [] ∧ s.msOk (s.winBase 0) = true ∧ s.windowStatus { f with gen := 1 } 0 4 = 6 ∧
       s.opens (s.winBase 0) = true ∧ s.portFree (s.winBase 0) = true ∧ (s.port 0).mgmt = none ∧
       (s.setFld F.STO_STATUS_INIT_DONE 0).opens (s.winBase 0) = false) ∧
    (let f := { frame 3 with aux := 8192 }
     let s := (asked f).setFld F.WIN_SIZE_PAGES 2 0
     s.windowStatus f 1 f.aux.toNat = 0 ∧ 4 ≤ f.aux.toNat ∧ f.aux.toNat ≤ 8192 ∧ f.aux.toNat % 4 = 0 ∧ s.servedNet (s.winBase 0) 8192 = true) ∧
    (let f (n : Nat) := { frame 4 with aux := BitVec.ofNat 32 n, data := List.replicate 12 0 }
     atomicOp (f 1) = some (.compare 0 0 0) ∧ atomicOp (f 2) = some (.add 0) ∧ atomicOp (f 3) = some (.swap 0 0)) ∧
    (let s := (asked (frame 6)).setFld F.PLT_MGMT_PEERS 2
     s.mayManage (frame 6) = true ∧ (asked (frame 6)).mayManage (frame 6) = false) ∧
    (regServed 0x440014 = true ∧ regAt 0x440014 = some (.PLT_MGMT, 0, 0)) := by
  unfold Reaches LeavesBy PortOpen
  decide +kernel

theorem witness_splices_and_multicast :
    (let f := { frame 2 with aux := 4, data := [1, 2, 3, 4] ++ leBytes 5 8 ++ [0, 0, 0] ++ leBytes 4 1 ++ leBytes 4 0 }
     let s := asked f
     let fill := s.winBase 0 + leField (f.data.drop 4) 0 5
     Quiet s ∧ (s.port 0).delivered = [f] ∧ s.windowStatus f 0 4 = 0 ∧ leField (f.data.drop 4) 0 5 + 8 ≤ s.winSize 0 ∧ f.data.length = 4 + 16 ∧
       s.servedNet (s.winBase 0) 4 = true ∧ s.msOk fill = true ∧ s.msOk (fill + 4) = true ∧
       s.opens (s.winBase 0) = true ∧ s.portFree (s.winBase 0) = true ∧ s.portFree fill = true ∧
       (s.rawWord (fill + 4) - BitVec.ofNat 32 (leField (f.data.drop 4) 12 4)).toNat < 2 ^ 31 ∧ 2 ^ 31 ≤ (s.rawWord (fill + 4) - 1).toNat) ∧
    (let f := { frame 5 with data := [1, 2, 3, 4], offset := 8 }
     let s (x : Nat) : State := { asked f with net := { (asked f).net with mc := [{ src := 1, chan := 0, expect := x }] } }
     Reaches (s 8) f 0 ∧ f.first = false ∧ (s 8).mcExpect f = some 8 ∧ (s 9).mcExpect f = some 9 ∧ (s 7).mcExpect f = some 7 ∧
       (s 8).windowStatus f 0 4 = 0 ∧ (asked f).mcExpect f = none) := by unfold Reaches LeavesBy PortOpen; decide +kernel

/-- Channel 0 is ACTIVE in mode `m`, to chip 1, with 16 bytes of the input store. -/
def channelled (m : Nat) (k : Dma) : State :=
  let s := routed (linked up 0) 1 0
  let s := ((s.setFld F.DMA_STATUS_STATE 1 0).setFld F.DMA_CTRL_MODE m 0).setFld F.DMA_LEN_BYTES 16 0
  (((s.setFld F.DMA_LOCAL_LO_ADDR (storeBase 1 / 4) 0).setFld F.DMA_TARGET_CHIP 1 0).setDma 0 k)

theorem witness_dma_channels_start :
    let s := (channelled 0 {}).setFld F.DMA_STATUS_STATE 0 0
    Quiet s ∧ s.fld F.DMA_STATUS_STATE 0 ≠ 1 ∧ s.inMemory (storeBase 1) 16 = true ∧ s.fld F.DMA_LOCAL_HI_ADDR 0 = 0 ∧
      s.fld F.DMA_LOCAL_LO_ADDR 0 * 4 = storeBase 1 ∧ (s.setFld F.DMA_MC_MEMBERS 2 0).fld F.DMA_MC_MEMBERS 0 ≠ 0 ∧
      s.fld F.DMA_SPL_SHAPE_BYTES 0 % 4 = 0 ∧ s.fld F.DMA_SPL_SRC_PLANES 0 * s.fld F.DMA_SPL_SHAPE_BYTES 0 ≤ 8176 ∧
      s.fld F.DMA_LEN_BYTES 0 % 4 = 0 ∧ s.fld F.DMA_LEN_BYTES 0 = 16 ∧ (s.setFld F.DMA_SPL_SHAPE_BYTES 2 0).fld F.DMA_SPL_SHAPE_BYTES 0 % 4 ≠ 0 := by decide +kernel

theorem witness_dma_channels_leave : LeavesBy (channelled 0 {}) false ((channelled 0 {}).fld F.DMA_TARGET_CHIP 0) 0 := by
  unfold LeavesBy PortOpen; decide +kernel

theorem witness_dma_channels_issue :
    (∀ m ∈ [0, 1], let s := channelled m {}
      Quiet s ∧ s.fld F.DMA_STATUS_STATE 0 = 1 ∧ (s.dma 0).stopping = none ∧ s.fld F.DMA_CTRL_MODE 0 = m ∧ (s.dma 0).txns.length < 8 ∧
        (s.dma 0).next < s.fld F.DMA_LEN_BYTES 0 ∧ s.servedNet (storeBase 1) 16 = true ∧ s.flips = [] ∧ s.poison = [] ∧
        s.bit F.DMA_TARGET_HOST 0 = false ∧ s.opens (storeBase 1) = true ∧ s.portFree (storeBase 1) = true) ∧
    (let u : Txn := { tag := 3, offset := 0, length := 16, sentAt := 0 }
     let s : State := channelled 0 { next := 16, txns := [u] }
     (s.dma 0).txns = [u] ∧ ¬ (16 < s.fld F.DMA_LEN_BYTES 0) ∧ s.elapsed u.sentAt < 1000 * max 1 (s.fld F.PLT_TXN_TMO_US) ∧
       1000 * max 1 (s.fld F.PLT_TXN_TMO_US) ≤ { s with time := 10000000000000 }.elapsed u.sentAt) := by decide +kernel

theorem witness_dma_channels_members :
    let m : Member := { chip := 1, sent := 16, times := [0] }
    let s := ((channelled 2 { members := [m] }).setFld F.PLT_MCG_LOCAL 0 0).setFld F.PLT_MCG_PORTS 1 0
    s.fld F.DMA_CTRL_MODE 0 = 2 ∧ (s.dma 0).members = [m] ∧ m.attached = true ∧ m.failed = none ∧ m.acked < m.sent ∧ (s.dma 0).catchUp = none ∧
      m.outstanding < 32 ∧ s.bit F.PLT_MCG_LOCAL (s.fld F.DMA_MC_GROUP 0) = false ∧ s.fld F.PLT_MCG_PORTS (s.fld F.DMA_MC_GROUP 0) = 2 ^ 0 ∧
      m.retries < max 1 (s.fld F.PLT_MC_RETRIES) ∧ m.sent ≤ m.acked + 8192 ∧ s.repairDue m = false ∧
      { s with time := 10000000000 }.repairDue m = true ∧ s.opens (storeBase 1) = true := by decide +kernel

theorem witness_dma_channels_splice :
    let s := (ringed (channelled 3 {})).setFld F.DMA_SPL_SRC_CORE 0 0
    let g := s.ring 0 (s.fld F.DMA_SPL_SRC_RING 0)
    let filled (s : State) : Prop := (s.rawWord (g.fill (0 % g.slots)) - BitVec.ofNat 32 (0 / g.slots + 1)).toNat < 2 ^ 31
    s.fld F.DMA_CTRL_MODE 0 = 3 ∧ s.slotOk g (0 % g.slots) (g.fill (0 % g.slots)) = true ∧ s.storeOk (g.fill (0 % g.slots) + 4) 1 = true ∧
      ¬ filled s ∧ filled (s.setRaw (g.fill (0 % g.slots)) 1) ∧ s.spliceEncrypted 0 = false ∧
      s.opens (storeBase 1) = true ∧ s.portFree (g.fill (0 % g.slots)) = true ∧ s.portFree (storeBase 1) = true := by decide +kernel

theorem witness_dma_responses :
    (let u : Txn := { tag := 0, offset := 0, length := 16, sentAt := 0 }
     (∀ m ∈ [(0, 0x81), (1, 0x83)], let f := frame m.2
       let s := delivered (channelled m.1 { next := 16, txns := [u] }) 0 f
       Quiet s ∧ (s.port 0).delivered = [f] ∧ f.mtype = BitVec.ofNat 8 m.2 ∧ s.fld F.DMA_STATUS_STATE 0 = 1 ∧ s.fld F.DMA_CTRL_MODE 0 = m.1 ∧
         (s.dma 0).stopping = none ∧ (s.dma 0).txns.find? (fun w => w.tag == f.tag) = some u ∧ f.status = 0 ∧
         contiguous 0 1 [(u.offset, u.length)] % 2 ^ 32 = s.fld F.DMA_LEN_BYTES 0 ∧
         s.opens (storeBase 1) = true ∧ s.portFree (storeBase 1) = true ∧ s.servedNet (storeBase 1) 16 = true)) ∧
    (let f := { frame 0x85 with offset := 8 }
     let m : Member := { chip := 1 }
     let s := delivered (channelled 2 { members := [m] }) 0 f
     (s.dma 0).members = [m] ∧ m.chip = f.src.toNat ∧ m.failed = none ∧ f.status = 0 ∧ m.acked < f.offset.toNat - s.dmaRofs 0 ∧
       f.offset.toNat - s.dmaRofs 0 < s.fld F.DMA_LEN_BYTES 0 ∧ (16 : Nat) - s.dmaRofs 0 = s.fld F.DMA_LEN_BYTES 0) ∧
    (let f := { frame 0x84 with data := bytesOfWords [5, 1] }
     let s := delivered State.reset 0 f
     (s.port 0).delivered = [f] ∧ f.mtype = 0x84) := by decide +kernel

theorem witness_network_time :
    (let s := ((State.reset.setFld F.TIME_CTRL_SERVO_EN 1).setFld F.TIME_CTRL_GPTP_EN 1).setFld F.TIME_CTRL_ROLE 0
     let s := s.wr .TIME_PORTS 2
     Quiet s ∧ s.slavePort.isSome = true ∧ s.bit F.TIME_CTRL_SERVO_EN = true ∧ s.bit F.TIME_CTRL_GPTP_EN = true ∧
       s.bit F.TIME_STATUS_HOLDOVER = false ∧ (s.rd .TIME_INTEG).toInt ≤ 549755813 ∧ -549755813 ≤ (s.rd .TIME_INTEG).toInt ∧
       s.syncLost = false ∧ { s with time := 10000000000000 }.syncLost = true) ∧
    (let s : State := { State.reset with tu := { pendingRate := some (549755813, 1000) } }
     Quiet s ∧ s.tu.pendingRate = some (549755813, 1000) ∧ s.reached 1000 = false ∧ { s with time := 1000 }.reached 1000 = true) := by decide +kernel

/-- A message with sequence number 0 and origin time `t`. -/
def message (t : Nat) (two : Bool) : PtpMsg :=
  { seqId := 0, seconds := BitVec.ofNat 48 (t / 1000000000), nanos := BitVec.ofNat 32 (t % 1000000000), correction := 0, rateOffset := 0, twoStep := two }

/-- gPTP runs, with the roles `r` of the ports and role `g` of the device. -/
def timedNet (r g : Nat) : State :=
  ((((linked (linked State.reset 0) 1).setFld F.TIME_CTRL_GPTP_EN 1).setFld F.TIME_CTRL_SERVO_EN 0).setFld F.TIME_CTRL_ROLE g).wr .TIME_PORTS
    (BitVec.ofNat 32 r)

theorem witness_time_messages :
    (let s := timedNet 2 0
     PortOpen s 0 ∧ s.bit F.TIME_CTRL_GPTP_EN = true ∧ s.ptpRole 0 = 2 ∧ (∀ q < 4, s.ptpRole q ≠ 1) ∧ s.bit F.TIME_CTRL_SERVO_EN = false ∧
       (let s := s.setFld F.TIME_CTRL_SERVO_EN 1
        s.bit F.TIME_CTRL_SERVO_EN = true ∧ s.grandmaster = false) ∧ s.ptpOn 0 = true) ∧
    (let s := timedNet (2 + 4) 0
     s.ptpRole 0 = 2 ∧ (∀ o < 4, s.ptpRole o = 1 ↔ o = 1) ∧ PortOpen s 1) ∧
    (let s := timedNet 1 1
     PortOpen s 0 ∧ s.grandmaster = true ∧ s.ptpRole 0 = 1 ∧ s.ptpOn 2 = false) ∧
    (let p : PtpPort := { sync := some (message 0 true, 5, 0), reqSent := some 3, resp := some (message 0 false, 9) }
     let s := (timedNet 2 0).setPort 0 { ptp := p }
     PortOpen s 0 ∧ (s.port 0).ptp.sync = some (message 0 true, 5, 0) ∧ s.elapsed 0 ≤ s.syncInterval ∧
       s.syncInterval < { s with time := 10000000000 }.elapsed 0 ∧ s.lapsed (s.port 0).ptp.reqAt s.pdelayInterval = true ∧
       s.lapsed (s.port 0).ptp.syncAt s.syncInterval = true ∧ s.lapsed (some 0) s.syncInterval = false ∧ s.lapsed (some 0) s.pdelayInterval = false ∧
       (message 0 true).domain = 0 ∧ ({ message 0 true with domain := 1 }).domain ≠ 0 ∧ (message 0 true).seqId = (message 7 false).seqId ∧
       (message 7 false).seqId = (s.port 0).ptp.reqSeq ∧ (s.port 0).ptp.reqSent = some 3 ∧ (s.port 0).ptp.lastPair = none ∧
       (message 7 false).correction = 0) := by unfold PortOpen; decide +kernel

/-! ### Knots and binds -/

/-- The device with HyperRAM and a library of 2 MB at its start. -/
def shelved (s : State) : State := ((hyper s).setFld F.LIB_BASE_HI_ADDR 1).setFld F.LIB_SIZE_MB 2

/-- Knot 5 in state `st`, of one page at address 0 of the weight store, with GEN 1. -/
def knotted (s : State) (st : Nat) : State :=
  { s with kn := { s.kn with table := [(80, BitVec.ofNat 32 st), (81, 1), (82, 0), (83, 1), (84, 1)] } }

/-- What the library holds of an image of knot 5 whose page is all zero: its directory entry, and the digest `d` of the page. -/
def image (d : List Byte) : List Host.Cell :=
  let table := hyperBase + 4096 * 320 + 8192
  [(hyperBase + 640, 1), (hyperBase + 644, 0x40), (hyperBase + 645, 1), (hyperBase + 652, 1)] ++
    (List.range 32).map (fun i => (table + i, d.getD i 0))

/-- The device with that image in its library. -/
def imaged (st : Nat) (d : List Byte) : State := { shelved (knotted up st) with mem := image d }

theorem witness_knot_library :
    (∀ st ∈ [1, 3], let s := (knotted State.reset st).setFld F.KNT_SEL_KNOT 5
      Quiet s ∧ s.kbound (min (s.fld F.KNT_SEL_KNOT) 10239) = 0 ∧ s.kstate (min (s.fld F.KNT_SEL_KNOT) 10239) = st) ∧
    (let s := shelved State.reset
     let r : ImportReq := { knot := 0, ofs := 320, len := 4096, noBody := false }
     s.importAllowed r = true ∧ s.importAllowed { r with ofs := 319 } = false ∧ s.importAllowed { r with ofs := 512 } = false ∧
       s.bit F.IMP_STATUS_BUSY = false ∧ (s.setFld F.IMP_STATUS_BUSY 1).bit F.IMP_STATUS_BUSY = true ∧ r.burst = none ∧
       ({ r with burst := some (1, List.replicate 16 0) } : ImportReq).burst = some (1, List.replicate 16 0) ∧
       let t : State := { s with kn := { imp := some r } }
       t.kn.imp = some r ∧ (t.hyperBytes (t.libBase + 4096 * r.ofs) headerLen).isSome = true ∧ t.inHyper (t.libBase + 4096 * r.ofs + headerLen) 0 = true) ∧
    (let s := knotted up 2
     s.kstate 5 = 2 ∧ s.opens (s.kbase 5) = true ∧ s.usableHalf 5 = none ∧ s.waitingSlots 5 = [] ∧ s.kn.ver = none ∧
       (knotted State.reset 2).opens ((knotted State.reset 2).kbase 5) = false) := by decide +kernel

theorem look_absent {α : Type} (m : Sparse α) (k : Nat) (d : α) (h : ∀ c ∈ m, c.1 ≠ k) : m.look k d = d := by
  have := h
  induction m with
  | nil => rfl
  | cons c m ih =>
    have h1 : (c.1 == k) = false := by simpa using h c (by simp)
    have h2 : ∀ e ∈ m, e.1 ≠ k := fun e he => h e (by simp [he])
    have := ih h2 h2
    simp_all [Sparse.look]

theorem image_zero (d : List Byte) (a : Nat) (h : hyperBase + 4096 * 320 + 8192 + 32 ≤ a) (h2 : a < hyperBase + 4096 * 512) : (imaged 2 d).byteAt a = 0 := by
  have h3 : unlisted a = 0 := by
    unfold unlisted flashBase
    unfold hyperBase at *
    rw [if_neg (by omega)]
  show Sparse.look (image d) a (unlisted a) = 0
  rw [look_absent, h3]
  intro c hc
  simp only [image, List.mem_append, List.mem_cons, List.mem_map, List.mem_range, List.not_mem_nil, or_false] at hc
  unfold hyperBase at *
  rcases hc with (rfl | rfl | rfl | rfl) | ⟨i, hi, rfl⟩ <;> simp only <;> omega

set_option maxRecDepth 20000 in
theorem image_table (x : Nat) : (imaged 2 (beBytes 32 x)).hyperBytes (hyperBase + 4096 * 320 + 8192) 32 = some (beBytes 32 x) := by
  have : (imaged 2 (beBytes 32 x)).inHyper (hyperBase + 4096 * 320 + 8192) 32 = true :=
    (by decide +kernel : (imaged 2 []).inHyper (hyperBase + 4096 * 320 + 8192) 32 = true)
  rw [State.hyperBytes, if_pos this]
  rfl

theorem image_body (d : List Byte) :
    (imaged 2 d).hyperBytes (hyperBase + 4096 * 320 + 8192 + 4096) 4096 = some (List.replicate 4096 0) := by
  have : (imaged 2 d).inHyper (hyperBase + 4096 * 320 + 8192 + 4096) 4096 = true :=
    (by decide +kernel : (imaged 2 []).inHyper (hyperBase + 4096 * 320 + 8192 + 4096) 4096 = true)
  rw [State.hyperBytes, if_pos this, State.bytesAt, List.map_congr_left (g := fun _ => 0)
    (fun i hi => image_zero _ _ (by omega) (by have := List.mem_range.mp hi; unfold hyperBase; omega)), List.map_const', List.length_range]

/-- A LOADING knot of one page whose image is in the library, with a page table that gives its page's digest. -/
theorem witness_knot_load :
    let s := imaged 2 (sha256Bytes (List.replicate 4096 0))
    Quiet s ∧ s.kstate 5 = 2 ∧ s.opens (s.kbase 5) = true ∧ s.portFree (s.kbase 5) = true ∧ s.kbase 5 % 4096 = 0 ∧ s.kpages 5 = 1 ∧
    s.pageServed (s.kbase 5) = true ∧
    (∃ h table body, s.usableHalf 5 = some (h, table, body) ∧ s.hyperBytes body 4096 = some (List.replicate 4096 0) ∧
      s.hyperBytes table 32 = some (sha256Bytes (List.replicate 4096 0))) :=
  ⟨rfl, by decide +kernel, by decide +kernel, by decide +kernel, by decide +kernel, by decide +kernel, by decide +kernel,
    { gen := 1, ofs := 320, len := 0, body := true, digest := List.replicate 32 0 }, hyperBase + 4096 * 320 + 8192,
    hyperBase + 4096 * 320 + 8192 + 4096, by decide +kernel, image_body _, image_table _⟩

/-- A verification of a VERIFYING knot ends in each way: with its image in the library, without one, or held by its store. -/
theorem witness_verify :
    (let s := imaged 4 []
     let s : State := { s with kn := { s.kn with ver := some (5, []) } }
     Quiet s ∧ s.kn.ver = some (5, []) ∧ s.opens (s.kbase 5) = true ∧ s.portFree (s.kbase 5) = true ∧ s.waitingSlots 5 = [] ∧
       s.kbase 5 % 4096 = 0 ∧ s.pageServed (s.kbase 5) = true ∧ (s.usableHalf 5).isSome = true ∧ s.flips = [] ∧ s.poison = []) ∧
    (let s := knotted up 4
     let s : State := { s with kn := { s.kn with ver := some (5, []) } }
     s.kn.ver = some (5, []) ∧ s.opens (s.kbase 5) = true ∧ s.usableHalf 5 = none ∧
       (s.setFld F.STO_STATUS_INIT_DONE 0).opens (s.kbase 5) = false) ∧
    (∀ st ∈ [1, 3], let s := (knotted up st).plainWrite .VER_CTRL 5
      s.fld F.VER_CTRL_KNOT = 5 ∧ s.kstate 5 = st ∧ s.kn.ver = none) := by decide +kernel

/-- A request for knot 5 on core 0, as a bind by itself outside a stream, in slot 0. -/
def requested (s : State) : State :=
  ((((s.setFld F.BIND_KNOT_KNOT 5 0).setFld F.BIND_TARGET_STREAM 2 0).setFld F.BIND_CORES_MASK 1 0).setFld F.BIND_TARGET_STRIPES 1 0)

theorem witness_binds_start :
    (let s := requested (knotted State.reset 3)
     Quiet s ∧ s.fld F.BIND_SEL_SLOT = 0 ∧ s.slotState 0 = 0 ∧ s.goCheck (s.bindReq 0) = 0 ∧ s.kstate 5 ≠ 1 ∧ s.bit F.BIND_KNOT_MODE 0 = false ∧
       s.knotVerified 5 = false ∧ ({ s with verified := [(0, true)] }).knotVerified 5 = true) ∧
    (let s := requested (knotted State.reset 1)
     s.goCheck (s.bindReq 0) = 0 ∧ s.kstate 5 = 1 ∧ s.loadRefusal 5 = 4) ∧
    (let s := requested (imaged 1 [])
     s.goCheck (s.bindReq 0) = 0 ∧ s.loadRefusal 5 = 0) ∧
    (requested State.reset).goCheck ((requested State.reset).bindReq 0) = 4 := by decide +kernel

/-- Where no requester's access stands at a port, every port's turn has come. -/
theorem free_of (s : State) (a : Nat) (h1 : s.stores.slots = []) (h2 : s.stores.waits = []) (h3 : s.stores.bridge = []) :
    s.portFree a = true := by
  unfold State.portFree
  split
  · rfl
  · rw [h1, h2, h3]; rfl

theorem witness_binds_apply :
    (let s := (requested (knotted up 3)).setFld F.BIND_STATUS_STATE 2 0
     let s : State := { s with verified := [(0, true)] }
     s.slotState 0 = 2 ∧ (s.bindReq 0).stream = 2 ∧ s.knotVerified (s.slotKnot 0) = true ∧ (s.readBind (s.bindReq 0)).1 = false ∧
       (({ s with poison := [(storeBase 0 + 0x4000, true)] } : State).readBind (s.bindReq 0)).1 = true ∧ (∀ c ∈ (s.bindReq 0).cores, (s.core c).state = 0) ∧
       s.tst.audit = none) ∧
    (let s := (requested (knotted up 3)).setFld F.BIND_STATUS_STATE 1 0
     let s : State := { s with verified := [(0, true)], mem := [(1, 0x44), (4, 1), (0x4407, 0x10)] }
     s.slotState 0 = 1 ∧ s.kstate (s.slotKnot 0) = 3 ∧ s.opens (s.kbase (s.slotKnot 0)) = true ∧ s.stores.slots = [] ∧ s.stores.waits = [] ∧
       s.stores.bridge = [] ∧ (s.checkStages (s.bindReq 0)).1 = 0 ∧
       (({ s with mem := [] } : State).checkStages (s.bindReq 0)).1 = 5 ∧ s.knotVerified (s.slotKnot 0) = true) ∧
    (let s := (State.reset.setFld F.CORE_BIND_VALID 1 3).setFld F.CORE_BIND_SKEIN 7 3
     s.boundTo 3 7 = true ∧ s.boundTo 2 7 = false ∧ s.boundTo 3 6 = false) := by decide +kernel

/-! ### Keepers, interrupts and the sideband -/

theorem witness_keepers_and_ticks :
    (∀ st ∈ [0, 1, 2, 3], let s := up.setKeeper 0 { state := st }
      Quiet s ∧ (s.keeper 0).state = st) ∧
    (let s := ((keeper0 {}).setFld F.KEP_WDOG_TICKS 3 0).setFld F.TICK_COUNT_COUNT 3
     s.fld F.KEP_WDOG_TICKS 0 ≠ 0 ∧ (s.keeper 0).state = 1 ∧ s.fld F.KEP_WDOG_TICKS 0 ≤ (s.fld F.TICK_COUNT_COUNT + 2 ^ 32 - (s.keeper 0).wdogTicks) % 2 ^ 32) ∧
    (let s := (scanning (State.reset.setFld F.SRC_CTRL_EN 1 0) 0).setFld F.KNT_CTRL_SWEEP_EN 0
     s.tickDue = true ∧ ({ s with time := 1 } : State).tickDue = false ∧
       ({ s with irq := { s.irq with lastTick := some s.time } } : State).tickDue = false ∧ s.bit F.KNT_CTRL_SWEEP_EN = false ∧ s.bit F.SRC_CTRL_EN 0 = true ∧ s.running 0 = true) ∧
    (let s := (up.setFld F.LSE_ADDR_LO_ADDR (storeBase 1 / 8) 0).setFld F.LSE_ADDR_HI_VALID 1 0
     let s : State := { (s.setRaw (storeBase 1) 9).setRaw (storeBase 1 + 4) 5 with time := 6000 }
     let a := s.fld F.LSE_ADDR_LO_ADDR 0 * 8 + s.fld F.LSE_ADDR_HI_ADDR 0 * 2 ^ 32
     let past := (s.nt / 1000 % 2 ^ 31 + 2 ^ 31 - (s.rawWord (a + 4)).toNat % 2 ^ 31) % 2 ^ 31
     a = storeBase 1 ∧ s.bit F.LSE_ADDR_HI_VALID 0 = true ∧ storeOf a ≠ some 3 ∧ s.storeOk a 2 = true ∧ s.portFree a = true ∧
       s.tst.injection = none ∧ s.stores.late = [] ∧ s.stores.watches = [] ∧ s.flips = [] ∧ s.poison = [] ∧ s.rawWord a ≠ 0 ∧
       (s.rawWord (a + 4)).getLsbD 31 = false ∧ past = 1 ∧ s.kn.lease.has 0 = false ∧
       ({ s with kn := { s.kn with lease := [(0, 9)] } }).kn.lease.look 0 0 = s.rawWord a) := by decide +kernel

/-- Source 64 (a software source) is pending for target `t` with priority 2, above its threshold of 1. -/
def pending (s : State) (t : Nat) : State :=
  (((s.wr .IRQ_SOFT_LO 1).setFld F.IRQ_CFG_PRIO 2 64).setFld F.IRQ_CFG_TARGETS (2 ^ t) 64).setFld F.IRQ_THRESH_THRESH 1 t

theorem witness_interrupts_and_events :
    (let s := pending State.reset 1
     Quiet s ∧ s.bestClaim 1 = some (64, 2) ∧ s.bestClaim 0 = none ∧ s.bit F.EVT_CTRL_EN = false ∧ s.heldKeeper 1 = none ∧ (∀ h ∈ s.irq.held, h.1 ≠ 1) ∧
       (s.setFld F.IRQ_THRESH_THRESH 2 1).bestClaim 1 = none) ∧
    (let s : State := { State.reset with irq := { inService := [(64, 1)], held := [(2, 0)] } }
     s.inService (serviceKey 1 64) = true ∧ s.irq.inService.look (serviceKey 1 64) 5 = 1 ∧ s.heldKeeper 2 = none ∧ s.irq.held.find? (·.1 == 2) = some (2, 0) ∧
       s.bestClaim 2 = none ∧ s.tickSince 0 = false ∧ ({ s with time := 1000000 } : State).tickSince 0 = true) ∧
    (let s := routed (linked ((pending State.reset 4).setFld F.EVT_CTRL_EN 1) 0) 12 0
     s.bit F.EVT_CTRL_EN = true ∧ s.bestClaim 4 = some (64, 2) ∧ s.outstanding < max 1 (s.fld F.EVT_CTRL_CREDITS) ∧ LeavesBy s true 0 0) ∧
    (let e : HostEvent := { src := 64, prio := 2, seq := 0, time := 0, lastSent := 0 }
     [e].find? (fun d => d.src == 64) = some e ∧ e.src ≠ 65 ∧ State.reset.elapsed e.lastSent < 1000 * max 100 (State.reset.fld F.EVT_RESEND_US) ∧
       let s : State := { State.reset with time := 10000000000 }
       1000 * max 100 (s.fld F.EVT_RESEND_US) ≤ s.elapsed e.lastSent) := by unfold LeavesBy PortOpen; decide +kernel

/-- Keeper 0 holds a read of IRQ_WAIT[2], and nothing is claimable. -/
theorem witness_held_keeper :
    let s : State := keeper0 { wait := .irq 0x20 (word 3 0), a := [(0, BitVec.ofNat 40 (ctrlBase + 0x90144))] }
    Quiet s ∧ s.heldKeeper 2 = some (0, word 3 0) ∧ s.bestClaim 2 = none ∧ s.tickSince ((s.keeper 0).eng.since.getD 0) = false ∧
      ({ s with time := 1000000 } : State).tickSince 0 = true := by decide +kernel

theorem witness_sideband_mailbox :
    (let s := State.reset
     Quiet s ∧ s.i2cAddress = 0x60 ∧ s.i2cAddress ≠ 0x61 ∧ s.bit F.MBX_STATUS_H2D_FULL = false ∧
       (s.setFld F.MBX_STATUS_H2D_FULL 1).bit F.MBX_STATUS_H2D_FULL = true ∧ (s.setFld F.MBX_STATUS_D2H_FULL 1).bit F.MBX_STATUS_D2H_FULL = true ∧ s.bit F.MBX_STATUS_D2H_FULL = false ∧ s.fld F.MBX_STATUS_H2D_LEN = 0 ∧ s.boot.phase = 1) ∧
    (let s := State.reset.setFld F.MBX_STATUS_H2D_LEN 4
     s.fld F.MBX_STATUS_H2D_LEN ≠ 0 ∧ s.bit F.STO_STATUS_INIT_DONE = false ∧ up.bit F.STO_STATUS_INIT_DONE = true ∧ ({ s with boot := { phase := 2 } }).boot.sbBytes.length + s.h2dBytes.length < 4096) ∧
    (0x40 : Byte).toNat + 64 ≤ 0x80 ∧ (0x7F : Byte).toNat + 1 ≤ 0x80 ∧ (1 : Byte).getLsbD 0 = true ∧ (1 : Byte).getLsbD 1 = false ∧
    (2 : Word).getLsbD 0 = false ∧ (1 : Word).getLsbD 1 = false := by decide +kernel

/-! ### Boot, self-test and resets -/

theorem witness_boot_flash_otp :
    (let s := State.reset
     Quiet s ∧ up.flashPhase = true ∧ s.flashPhase = false ∧ s.bit F.XSPI_STATUS_BUSY = false ∧ s.boot.slot = none ∧
       s.bit F.OTP_STATUS_BUSY = false ∧ s.boot.otpJob = none ∧ s.otpRefuses 0 1 = false ∧ s.otpRefuses 0x100 1 = true ∧ s.svnCounter true = 0 ∧
       (s.setFld F.XSPI_STATUS_BUSY 1).bit F.XSPI_STATUS_BUSY = true ∧ (s.setFld F.OTP_STATUS_BUSY 1).bit F.OTP_STATUS_BUSY = true) ∧
    (let s : State := { State.reset with boot := { slot := some 0 } }
     ∃ i, s.boot.slot = some i ∧ (0x3F0000 : Nat) < (i + 1) * 0x400000 ∧ i * 0x400000 < 0x3F0000 + 0x10000) := by
  refine ⟨by decide +kernel, 0, rfl, by decide, by decide⟩

/-- The device asks for an operation of the attestation unit from the input store into it. -/
def attesting (b : Boot) : State :=
  let s := (up.setFld F.ATT_SRC_ADDR (storeBase 1 / 8)).setFld F.ATT_DST_ADDR (storeBase 1 / 8 + 1024)
  { (s.setFld F.MEAS_SRC_ADDR (storeBase 1 / 8)) with boot := b }

theorem witness_attestation :
    (let s := attesting {}
     Quiet s ∧ s.bit F.ATT_STATUS_BUSY = false ∧ s.attRange (s.fld F.ATT_SRC_ADDR * 8) 128 = true ∧ s.portFree (s.fld F.ATT_SRC_ADDR * 8) = true ∧
       s.portFree (s.fld F.MEAS_SRC_ADDR * 8) = true ∧ (s.setFld F.ATT_STATUS_BUSY 1).bit F.ATT_STATUS_BUSY = true ∧ s.attRange (s.fld F.ATT_DST_ADDR * 8) 448 = true ∧
       s.flips = [] ∧ s.poison = [] ∧ s.boot.session = none ∧ s.servedNet (s.fld F.MEAS_SRC_ADDR * 8) 48 = true ∧ State.reset.attRange 0 32 = false ∧
       s.boot.att = none) ∧
    (∀ n ∈ [16, 4096], let s := attesting { session := some 1 }
      let v : Word := BitVec.ofNat 32 (65536 * n)
      s.boot.session = some 1 ∧ v.toNat / 65536 % 8192 = n ∧ n % 16 = 0 ∧ s.attRange (s.fld F.ATT_SRC_ADDR * 8) (n + 28) = true ∧
        s.attRange (s.fld F.ATT_DST_ADDR * 8) (n + 28) = true) ∧
    (let s := attesting { att := some { code := 0, dst := storeBase 1, out := [1, 2] } }
     s.boot.att = some { code := 0, dst := storeBase 1, out := [1, 2] } ∧ s.servedBytes (storeBase 1) 2 = true ∧ s.portFree (storeBase 1) = true ∧
       s.tst.injection = none ∧ s.stores.late = [] ∧ s.stores.watches = [] ∧ s.flips = [] ∧ s.poison = []) ∧
    ({ State.reset with boot := { phase := 0 } } : State).bit F.BOOT_STATUS_IDPUB_VALID = false := by decide +kernel

theorem witness_audits :
    (let s := State.reset
     Quiet s ∧ s.tst.audit = none ∧ s.tst.request = none) ∧
    (let s := (audited State.reset 0 false).setCore 0 { state := 3 }
     s.tst.audit.isSome = true ∧ (s.core 0).state = 3 ∧ s.stores.late = []) ∧
    (let s := (audited (up.setFld F.TST_SAVE_ADDR 0) 0 true).setCore 0 { state := 3 }
     Quiet s ∧ s.underAudit 0 = true ∧ s.saveOk = true ∧ s.flips = [] ∧ s.poison = []) ∧
    (let s : State := { (audited (core0 {} {}) 0 false).setCore 0 { state := 2, haltReq := true } with time := 20000 }
     (s.core 0).state ≠ 3 ∧ 20000 ≤ s.elapsed 0 ∧ (audited (core0 {} {}) 0 false).elapsed 0 < 20000 ∧ (s.core 0).haltReq = true ∧ (s.core 0).fetch.atHalt = false ∧ 0 ∉ s.tst.deferred) := by
  decide +kernel

theorem witness_slices_and_injection :
    (let s := State.reset.setFld F.TST_CTRL_SLICE_EN 1
     let s : State := { s with tst := { s.tst with sliceDue := true } }
     Quiet s ∧ s.bit F.TST_CTRL_SLICE_EN = true ∧ s.bit F.TST_STATUS_SLICE_BUSY = false ∧ s.sliceNow = true ∧ State.reset.sliceNow = false ∧ s.sliceFits = true ∧
       (∀ k < 3, ((s.setFld F.TST_SLICE_MASK 7).fld F.TST_SLICE_MASK).testBit k = true) ∧
       (s.setFld F.TST_STATUS_SLICE_BUSY 1).bit F.TST_STATUS_SLICE_BUSY = true) ∧
    (let s := (State.reset.setFld F.TST_CTRL_INJ_EN 1).setFld F.TST_INJ_PARAM_BIT0 40
     s.bit F.TST_CTRL_INJ_EN = true ∧ min 39 (s.fld F.TST_INJ_PARAM_BIT0) = 39 ∧ min 39 (s.fld F.TST_INJ_PARAM_BIT1) = 0) ∧
    (let j : Injection := { kind := 3, addr := 0, bit0 := 0, bit1 := 0, core := 0, until_ := 0 }
     ({ State.reset with tst := { injection := some j } } : State).tst.injection = some j ∧ State.reset.reached j.until_ = true ∧
       State.reset.reached 5 = false) := by decide +kernel

theorem witness_register_writes :
    regServed 0 = true ∧ regAt 0x440014 = some (.PLT_MGMT, 0, 0) ∧
    (∀ r ∈ [RegId.SYS_SCRATCH, .BOOT_NEXT, .XSPI_ADDR, .OTP_ADDR, .OTP_DATA, .TST_CTRL, .TST_EVT, .TST_SAVE, .TST_INJ_PARAM,
      .KNT_EVT, .STO_EVT, .IRQ_CFG, .BELAY_EVT], regServed r.row.base = true ∧ regAt r.row.base = some (r, 0, 0)) ∧
    regServed 0xFFFFFF = false ∧ State.reset.bit F.HYP_STATUS_INIT_BUSY = false ∧
    (State.reset.setFld F.HYP_STATUS_INIT_BUSY 1).bit F.HYP_STATUS_INIT_BUSY = true := by decide +kernel

theorem witness_resets :
    Quiet State.reset ∧ State.reset.boot.flash = none ∧ State.reset.boot.otpJob = none ∧ State.reset.stores.bandMoves = [] ∧ State.reset.otpConfig 0 = false ∧
    ({ State.reset with boot := { otp := [(8, 1)] } } : State).otpConfig 0 = true ∧
    (0xA501 : Word).getLsbD 0 = true ∧ (0xA501 : Word).toNat / 256 % 256 = 0xA5 := by decide +kernel

theorem witness_memory_form_kept :
    State.reset.memoryOk ∧ (∃ t, step { State.reset with pending := [.hyperramInit 1] } = .next t) := by
  refine ⟨⟨List.Pairwise.nil, fun _ h => by cases h⟩, _, rfl⟩

/-! ### Values of the spec's worked examples and tables -/

/-- The ASCII bytes 123456789 (chapters 9 and 12 give both check values). -/
def digits : List Byte := (List.range 9).map (fun i => BitVec.ofNat 8 (0x31 + i))

theorem test_crc32c_check : crc32c digits = 0xE3069283 := by decide +kernel
theorem test_crc64_check : crc64 0 digits = 0x6C40DF5F0B497347 := by decide +kernel

/-- The example abc of FIPS 180-4, which R459 and R460 take their hashes from. -/
theorem test_sha : sha256 (asciiBytes "abc") = 0xba7816bf8f01cfea414140de5dae2223b00361a396177a9cb410ff61f20015ad ∧
    sha384 (asciiBytes "abc") =
      0xcb00753f45a35e8bb5a03d699ac65007272c32ab0eded1631a8b605a43ff5bed8086072ba1e7cc2358baeca134c825a7 := by decide +kernel

/-- The table of R256: round half to even, also below zero. -/
theorem test_round_even : [6, 10, 7, -6, -7].map (fun p => roundShift p 2) = [2, 2, 2, -2, -2] := by decide +kernel

/-- The rescaling example of chapter 9: 1,234,567 becomes 103. -/
theorem test_rescale_example : rescale 1234567 (-4500) 1518500250 44 (-3) (-128) 127 = 103 := by decide +kernel

/-- The dynamic scale example of chapter 9: e = 8 and f = 3, at which 50,000 becomes 112 and −20,001 becomes −45. -/
theorem test_dynamic_scale_example : dynScale 50000 127 = 8 * 4 + 3 ∧ roundShift (50000 * dynM 3) 24 = 112 ∧
    roundShift (-20001 * dynM 3) 24 = -45 := by decide +kernel

/-- The Winograd example of chapter 9: rows of U, and the entry (1, 1) of the transformed block. -/
theorem test_winograd_example :
    let d : List (List (List Int)) := [[[1, 2, 0, 1]], [[0, 1, 3, 2]], [[2, 0, 1, 1]], [[1, 3, 0, 2]]]
    (List.range 4).map (fun xi => (List.range 4).map (fun eta => winoU d 0 0 xi eta)) =
      [[0, 1, -3, 2], [-2, 5, 3, -2], [4, -3, -1, 0], [-4, 1, 5, -2]] := by decide +kernel

/-- The result rows of the same example, from its products. -/
theorem test_winograd_sums :
    let uv : List (List Int) := [[0, 0, 0, -8], [-12, 15, 9, 0], [-8, 9, -1, 0], [0, 0, 20, -8]]
    (List.range 2).map (fun a => (List.range 2).map (fun b => sumTo 4 (fun xi => sumTo 4 (fun eta =>
      winoA a xi * ((uv.getD xi []).getD eta 0) * winoA b eta)))) = [[12, 24], [-8, 8]] := by decide +kernel

/-- The CONV example of chapter 6: 100 positions. -/
theorem test_conv_positions : convE { Desc.of 0 with e0 := 200, pl := 2, pr := 2 } 3 2 2 = 100 := by decide +kernel

/-- R140: PLOG's truth table bit for Pa = 1 and Pb = 0 is bit 2. -/
theorem test_plog_bit : plogBit 4 true false = true ∧ plogBit 4 false true = false := by decide

/-- The wheel example of chapter 3: port 5 reaches octet 20 of the activation store eleven steps after step 100. -/
theorem test_wheel_example :
    (({ State.reset with stores := { wheel := [(1, 100)] } }).turnWheel 1 5 20).stores.wheel.look 1 0 = 112 := by decide +kernel

/-- The reset values of STO_GEOM that chapter 3 lists. -/
theorem test_sto_geom : (List.range 5).map (fun i => State.reset.rd .STO_GEOM i) =
    [0x20002160, 0x20002330, 0x08002140, 0x20000120, 0x20000808] := by decide +kernel

/-- The digest index of chapter 9's example: line 1,000, channel 5, column 2,880. -/
theorem test_digest_index : (BitVec.ofNat 64 (1000 * 2 ^ 32 + 5 * 65536 + 2880 / 16) : BitVec 64) = 0x000003E8000500B4 := by decide

/-- Single precision (R142 onwards): 1 + 1, 1 / 0, and a signalling operand made the canonical NaN. -/
theorem test_float : fAdd 0x3F800000 0x3F800000 = 0x40000000 ∧ fMul 0x40000000 0x3F000000 = 0x3F800000 ∧
    fAdd 0x7F800000 0xFF800000 = fNaN ∧ fOfInt (-3) = 0xC0400000 := by decide +kernel

/-! ### Single commands -/

/-- The engine after a step of one command. -/
def after (i : Instr) (s : State) (e : EngId) : Engine :=
  match step { s with pending := [i] } with
  | .next t => t.eng e
  | _ => {}

theorem test_add_wraps : let b := word 1 (3 * 2 ^ 45 + 1 * 2 ^ 40 + 2 * 2 ^ 35)
    let y := after (.add (.fetch 0) b) (core0 { s := [(1, 0xFFFFFFFF), (2, 2)] } {}) (.fetch 0)
    y.rs 3 = 1 ∧ y.pc = 1 := by decide +kernel
theorem test_sub_order : let b := word 1 (3 * 2 ^ 45 + 1 * 2 ^ 40 + 2 * 2 ^ 35)
    (after (.sub (.fetch 0) b) (core0 { s := [(1, 1), (2, 2)] } {}) (.fetch 0)).rs 3 = 0xFFFFFFFF := by decide +kernel
theorem test_s0_discards : (after (.addi (.fetch 0) (word 1 5)) (core0 {} {}) (.fetch 0)).rs 0 = 0 := by decide +kernel
theorem test_sra_sign : let b := word 1 (3 * 2 ^ 45 + 1 * 2 ^ 40 + 31)
    (after (.srai (.fetch 0) b) (core0 { s := [(1, 0x80000000)] } {}) (.fetch 0)).rs 3 = 0xFFFFFFFF := by decide +kernel
theorem test_min_signed : let b := word 1 (3 * 2 ^ 45 + 1 * 2 ^ 40 + 2 * 2 ^ 35)
    (after (.min (.fetch 0) b) (core0 { s := [(1, 0xFFFFFFFF), (2, 1)] } {}) (.fetch 0)).rs 3 = 0xFFFFFFFF := by decide +kernel
/-- R129 and R131: the other engine's instruction is passed over; a used field that must be zero faults the core. -/
theorem test_other_engine : let y := after (.addi (.fetch 0) (word 2 (3 * 2 ^ 45 + 5))) (core0 {} {}) (.fetch 0)
    y.pc = 1 ∧ y.rs 3 = 0 := by decide +kernel
theorem test_illegal_field :
    (match step { core0 {} {} with pending := [.add (.fetch 0) (word 1 1)] } with
      | .next t => some ((t.core 0).state, t.log.map (fun r => (r.fault.code, r.fault.cls, r.fault.unit))) | _ => none) =
      some (4, [(0x13, 0, 0)]) := by decide +kernel
theorem test_idle : (match step State.reset with | .next t => some (t.time, t.regs, t.pending) | _ => none) = some (1, [], []) := rfl
theorem test_queue_order : (match step { State.reset with pending := [.keeperStart 1, .keeperHalt 1] } with
    | .next t => some ((t.keeper 1).state, t.pending) | _ => none) = some (1, [.keeperHalt 1]) := by decide +kernel
theorem test_irq_threshold_is_strict : ((pending State.reset 1).setFld F.IRQ_THRESH_THRESH 2 1).bestClaim 1 = none := by decide +kernel

end Sys2Proof.Tests
end

section
/-! Laws shared by the instructions that write one register and go on: a second replacement of an engine, and what a command
whose whole effect is one register answers (R132). -/

namespace Sys2Proof

/-- A second value listed at a key takes the place of the first. -/
@[simp] theorem Sparse.put_put {α : Type} (m : Sparse α) (k : Nat) (v w : α) : (m.put k v).put k w = m.put k w := by
  induction m with
  | nil => simp [put]
  | cons c r ih =>
    rcases Nat.lt_trichotomy c.1 k with h | h | h
    · simp [put, h, ih]
    · simp [put, h]
    · have h1 : ¬ c.1 < k := by omega
      have h2 : c.1 ≠ k := by omega
      simp [put, h1, h2]

namespace Machine

variable (s : State)

/-! ### Replacing an engine -/

@[simp] theorem State.setCore_setCore (c : Nat) (k l : Core) : (s.setCore c k).setCore c l = s.setCore c l := by
  simp [State.setCore]

@[simp] theorem State.setKeeper_setKeeper (k : Nat) (v w : Keeper) : (s.setKeeper k v).setKeeper k w = s.setKeeper k w := by
  simp [State.setKeeper]

/-- A second value of an engine takes the place of the first. -/
@[simp] theorem State.setEng_setEng (e : EngId) (x y : Engine) : (s.setEng e x).setEng e y = s.setEng e y := by
  cases e <;> simp [State.setEng, State.updCore, State.updKeeper]

/-! ### Where an engine goes on (R132, R146) -/

/-- What an engine keeps for no longer than the instruction it completes. -/
def Engine.settled (x : Engine) : Engine :=
  { x with
    wait := .none, withdraw := false, expired := false, got := none, fence := none, loaded := none, stall := none, since := none }

theorem loopEnd_no_end {p : Nat} {ls : List LoopRec} (n : Sparse Word) (h : ∀ l ∈ ls.head?, l.last ≠ p) :
    loopEnd p ls n = (p + 1, ls, n) := by
  cases ls with
  | nil => rfl
  | cons l r => simp [loopEnd, h l rfl]

theorem loopEnd_round {p : Nat} {l : LoopRec} (r : List LoopRec) {n : Sparse Word} (h : l.last = p) (hc : n.look l.counter 0 ≠ 1) :
    loopEnd p (l :: r) n = (l.first, l :: r, n.set l.counter 0 (n.look l.counter 0 - 1)) := by
  have hv : n.look l.counter 0 - 1 ≠ 0 := fun h0 => hc (BitVec.sub_eq_iff_eq_add.mp h0 |>.trans (BitVec.zero_add 1))
  simp only [loopEnd, if_pos h, if_pos hv]

theorem loopEnd_last_round {p : Nat} {l : LoopRec} (r : List LoopRec) {n : Sparse Word} (h : l.last = p) (hc : n.look l.counter 0 = 1) :
    loopEnd p (l :: r) n = loopEnd p r (n.set l.counter 0 0) := by
  have hv : ¬ n.look l.counter 0 - 1 ≠ 0 := fun hn => hn (by rw [hc]; rfl)
  simp only [loopEnd, if_pos h, if_neg hv]

variable {x : Engine} {l : LoopRec} {r : List LoopRec}

/-- No loop ends here: the engine is at the next instruction. -/
theorem Engine.complete_no_end (h : ∀ l ∈ x.loops.head?, l.last ≠ x.pc) : x.complete x.pc = { x with pc := x.pc + 1 }.settled := by
  simp only [Engine.complete, loopEnd_no_end x.n h, Engine.settled]

/-- The innermost loop ends here with rounds to go: its counter falls by one, and the engine is at its first instruction. -/
theorem Engine.complete_round (hl : x.loops = l :: r) (h : l.last = x.pc) (hc : x.rn l.counter ≠ 1) :
    x.complete x.pc = { x.wn l.counter (x.rn l.counter - 1) with pc := l.first }.settled := by
  simp only [Engine.complete, hl, loopEnd_round r h hc, Engine.settled, Engine.wn, Engine.rn]

/-- The innermost loop ends here for the last time: the engine goes on as one without that loop. -/
theorem Engine.complete_last_round (hl : x.loops = l :: r) (h : l.last = x.pc) (hc : x.rn l.counter = 1) :
    x.complete x.pc = { x.wn l.counter 0 with loops := r }.complete x.pc := by
  simp only [Engine.complete, hl, loopEnd_last_round r h hc, Engine.wn]

/-! ### Going on -/

variable (e : EngId)

/-- An engine that stays in the program becomes what its completion leaves of it. -/
theorem State.retire_of_le {y : Engine} (h : (s.eng e).complete (s.eng e).pc = y) (hp : y.pc ≤ 8191) : s.retire e = s.setEng e y := by
  have hn : ¬ 8191 < y.pc := Nat.not_lt.mpr hp
  simp only [State.retire, State.completeAt, State.updEng, h, State.eng_setEng, if_neg hn]

/-- An engine that leaves the program faults, recording its last instruction. -/
theorem State.retire_of_lt {y : Engine} (h : (s.eng e).complete (s.eng e).pc = y) (hp : 8191 < y.pc) :
    s.retire e = (s.setEng e y).instrFaultAt e 8191 codeIllegal 8191 0 0 := by
  simp only [State.retire, State.completeAt, State.updEng, h, State.eng_setEng, if_pos hp]

/-- Where an engine goes on depends only on what its completion leaves of it. -/
theorem State.retire_setEng_of_complete {y : Engine} (h : (s.eng e).complete (s.eng e).pc = y.complete y.pc) :
    (s.setEng e y).retire e = s.retire e := by
  simp only [State.retire, State.completeAt, State.updEng, h, State.eng_setEng, State.setEng_setEng]

variable {s e} {w : Allow} {ok : KBits → Bool} {body : EngId → KBits → State → State} {b : KBits}

/-- A command that starts, and whose body leaves its engine as `x` and goes on, does just that. -/
theorem done_runInstr_goesOn (h : Starts w s e b (ok b)) (hb : body e b s = (s.setEng e x).retire e) :
    done (runInstr w ok body e b s) = goesOn s e x := by
  rw [runInstr_starts s h, hb]; rfl

end Machine

end Sys2Proof
end

section
/-! The scalar instructions (R139). -/

namespace Sys2Proof.Machine

variable {s : State} {e : EngId} {b : KBits}

theorem done_aluRR (f : Word → Word → Word) (h : Starts anyEngine s e b (b.z 34 0)) :
    done (aluRR f e b s) =
      goesOn s e ((s.eng e).ws (b.f 49 45) (f ((s.eng e).rs (b.f 44 40)) ((s.eng e).rs (b.f 39 35)))) :=
  done_runInstr_goesOn (ok := fun b => b.z 34 0) h rfl

theorem done_aluRI (f : Word → Word → Word) (h : Starts anyEngine s e b (b.z 39 32)) :
    done (aluRI f e b s) = goesOn s e ((s.eng e).ws (b.f 49 45) (f ((s.eng e).rs (b.f 44 40)) b.imm)) :=
  done_runInstr_goesOn (ok := fun b => b.z 39 32) h rfl

/-- The signed minimum, whichever operand a tie takes. -/
theorem signedMin_eq (a c : Word) : (if a.toInt < c.toInt then a else c) = if c.slt a then c else a := by
  simp only [BitVec.slt, decide_eq_true_eq]
  rcases Int.lt_trichotomy a.toInt c.toInt with h | h | h
  · rw [if_pos h, if_neg (Int.not_lt.mpr (Int.le_of_lt h))]
  · rw [BitVec.toInt_inj.mp h]
  · rw [if_pos h, if_neg (Int.not_lt.mpr (Int.le_of_lt h))]

/-- MIN, with the comparison of R139's table. -/
theorem exec_min (h : Starts anyEngine s e b (b.z 34 0)) :
    exec (.min e b) s = goesOn s e ((s.eng e).ws (b.f 49 45)
      (if ((s.eng e).rs (b.f 39 35)).slt ((s.eng e).rs (b.f 44 40)) then (s.eng e).rs (b.f 39 35) else (s.eng e).rs (b.f 44 40))) := by
  rw [← signedMin_eq]
  exact done_aluRR _ h

/-- MAX, with the comparison of R139's table. -/
theorem exec_max (h : Starts anyEngine s e b (b.z 34 0)) :
    exec (.max e b) s = goesOn s e ((s.eng e).ws (b.f 49 45)
      (if ((s.eng e).rs (b.f 44 40)).slt ((s.eng e).rs (b.f 39 35)) then (s.eng e).rs (b.f 39 35) else (s.eng e).rs (b.f 44 40))) := by
  simp only [BitVec.slt, decide_eq_true_eq]
  exact done_aluRR _ h

/-- Settles O2: each scalar instruction is one of two formats, with its own function of two words. -/
theorem scalarResults : Obligations.ScalarResults := by
  intro e b s x A B I dest
  refine ⟨fun h => ?_, fun h => ?_⟩
  · exact ⟨done_aluRR _ h, done_aluRR _ h, done_aluRR _ h, done_aluRR _ h, done_aluRR _ h, done_aluRR _ h, done_aluRR _ h,
      done_aluRR _ h, done_aluRR (· * ·) h, exec_min h, exec_max h⟩
  · exact ⟨done_aluRI _ h, done_aluRI _ h, done_aluRI _ h, done_aluRI _ h, done_aluRI _ h, done_aluRI _ h, done_aluRI _ h,
      done_aluRI (· * ·) h⟩

end Sys2Proof.Machine
end

section
/-! Address registers and descriptor words (R141, R148). -/

namespace Sys2Proof

theorem KBits.f_lt (b : KBits) (hi lo : Nat) : b.f hi lo < 2 ^ (hi - lo + 1) := Nat.mod_lt _ (Nat.two_pow_pos _)

namespace Machine

/-- A sum modulo 2^40 of an address and a signed word. -/
theorem add_signExtend_eq_ofInt (a : Addr) (v : Word) : a + v.signExtend 40 = BitVec.ofInt 40 (a.toNat + v.toInt) := by
  rw [BitVec.ofInt_add, BitVec.ofInt_natCast, BitVec.ofNat_toNat, BitVec.setWidth_eq]
  rfl

/-- A sum modulo 2^40 of an address and two signed words. -/
theorem add_signExtend_signExtend_eq_ofInt (a : Addr) (v i : Word) :
    a + v.signExtend 40 + i.signExtend 40 = BitVec.ofInt 40 (a.toNat + v.toInt + i.toInt) := by
  rw [BitVec.ofInt_add, ← add_signExtend_eq_ofInt]
  rfl

/-- The bits of a constant whose low bits are ones. -/
theorem getLsbD_lowOnes {n : Nat} {m : BitVec 256} (h : m = (BitVec.allOnes n).setWidth 256) {k : Nat} (hk : k < 256) :
    m.getLsbD k = decide (k < n) := by
  simp [h, hk]

/-- A replaced word of a descriptor reads as written, and the others as before (R148). -/
theorem descWord_setDescWord (d : BitVec 256) (v : Word) {i w : Nat} (hi : i < 8) (hw : w < 8) :
    descWord (setDescWord d i v) w = if w = i then v else descWord d w := by
  refine BitVec.eq_of_getLsbD_eq fun k hk => ?_
  have hb : 32 * w + k < 256 := by omega
  have ones : (0xFFFFFFFF : BitVec 256).getLsbD (32 * w + k - 32 * i) = decide (32 * w + k - 32 * i < 32) :=
    getLsbD_lowOnes (n := 32) (by decide) (by omega)
  simp only [descWord, setDescWord, BitVec.getLsbD_extractLsb', BitVec.getLsbD_or, BitVec.getLsbD_and, BitVec.getLsbD_not,
    BitVec.getLsbD_shiftLeft, BitVec.getLsbD_setWidth, ones, hk, hb]
  split
  case isTrue h =>
    have at_ : ¬ 32 * w + k < 32 * i := by omega
    have offset : 32 * w + k - 32 * i = k := by omega
    have hk' : k < 256 := by omega
    simp only [at_, offset, hk, hk', decide_true, decide_false, Bool.not_false, Bool.not_true, Bool.true_and, Bool.and_false,
      Bool.false_or]
  case isFalse h =>
    rcases Nat.lt_or_gt_of_ne h with h | h
    · have below : 32 * w + k < 32 * i := by omega
      simp only [below, hk, decide_true, Bool.not_true, Bool.not_false, Bool.and_false, Bool.false_and, Bool.true_and, Bool.and_true,
        Bool.or_false, BitVec.getLsbD_extractLsb']
    · have above : ¬ 32 * w + k - 32 * i < 32 := by omega
      have out : v.getLsbD (32 * w + k - 32 * i) = false := BitVec.getLsbD_of_ge _ _ (Nat.le_of_not_lt above)
      simp only [above, out, hk, decide_true, decide_false, Bool.not_false, Bool.and_false, Bool.true_and, Bool.and_true,
        Bool.or_false, BitVec.getLsbD_extractLsb']

/-- The bits that an addition to the base leaves: the sum below bit 40, and the descriptor's own above (R148). -/
theorem getLsbD_addBase (d : BitVec 256) (v : Word) {k : Nat} (hk : k < 256) :
    (addBase d v).getLsbD k = if k < 40 then (d.extractLsb' 0 40 + v.signExtend 40).getLsbD k else d.getLsbD k := by
  have ones : (0xFFFFFFFFFF : BitVec 256).getLsbD k = decide (k < 40) := getLsbD_lowOnes (n := 40) (by decide) hk
  simp only [addBase, BitVec.getLsbD_or, BitVec.getLsbD_and, BitVec.getLsbD_not, BitVec.getLsbD_setWidth, ones, hk]
  split
  case isTrue h => simp only [h, decide_true, Bool.not_true, Bool.and_false, Bool.false_or, Bool.true_and]
  case isFalse h =>
    have out : (d.extractLsb' 0 40 + v.signExtend 40).getLsbD k = false := BitVec.getLsbD_of_ge _ _ (Nat.le_of_not_lt h)
    simp only [h, out, decide_true, decide_false, Bool.not_false, Bool.and_true, Bool.and_false, Bool.or_false]

theorem addBase_base (d : BitVec 256) (v : Word) :
    (addBase d v).extractLsb' 0 40 = BitVec.ofInt 40 ((d.extractLsb' 0 40).toNat + v.toInt) := by
  rw [← add_signExtend_eq_ofInt]
  refine BitVec.eq_of_getLsbD_eq fun k hk => ?_
  rw [BitVec.getLsbD_extractLsb', getLsbD_addBase d v (by omega)]
  simp only [Nat.zero_add, hk, decide_true, Bool.true_and, if_true]

theorem addBase_rest (d : BitVec 256) (v : Word) : (addBase d v).extractLsb' 40 216 = d.extractLsb' 40 216 := by
  refine BitVec.eq_of_getLsbD_eq fun k hk => ?_
  rw [BitVec.getLsbD_extractLsb', BitVec.getLsbD_extractLsb', getLsbD_addBase d v (by omega), if_neg (by omega)]

variable {s : State} {e : EngId} {b : KBits}

/-- AADD, as a sum of integers modulo 2^40. -/
theorem exec_aadd (h : Starts fetchKeeper s e b (b.z 36 32)) :
    exec (.aadd e b) s = goesOn s e ((s.eng e).wa (b.f 49 46) (BitVec.ofInt 40
      (((s.eng e).ra (b.f 45 42)).toNat + ((s.eng e).rs (b.f 41 37)).toInt + b.imm.toInt))) := by
  rw [← add_signExtend_signExtend_eq_ofInt]
  exact done_runInstr_goesOn (ok := fun b => b.z 36 32) h rfl

/-- Settles O3, by what the two packed writes of a descriptor read back as. -/
theorem addressAndDescriptorResults : Obligations.AddressAndDescriptorResults := by
  intro e b s x d
  refine ⟨fun h => ?amovi, exec_aadd, fun h => ?dsetw, fun h => ?dgetw, fun h => ?dmov, fun h => ?daddb⟩
  case amovi => exact done_runInstr_goesOn (ok := fun b => b.z 45 40) h rfl
  case dsetw =>
    exact ⟨_, done_runInstr_goesOn (ok := fun b => b.z 44 40 && b.z 31 0) h rfl,
      fun w hw => descWord_setDescWord _ _ (b.f_lt 34 32) hw⟩
  case dgetw => exact done_runInstr_goesOn (ok := fun b => b.z 39 35 && b.z 31 0) h rfl
  case dmov => exact done_runInstr_goesOn (ok := fun b => b.z 39 0) h rfl
  case daddb =>
    exact ⟨_, done_runInstr_goesOn (ok := fun b => b.z 44 40 && b.z 34 0) h rfl, addBase_base _ _, addBase_rest _ _⟩

end Machine

end Sys2Proof
end

section
/-! Predicates (R140), and how an engine goes on through its loops (R132, R146). -/

namespace Sys2Proof.Machine

/-- The six conditions, by the comparisons of words (R140). -/
theorem cmpCond_eq {cond : Nat} (a c : Word) (h : cond ≤ 5) :
    cmpCond cond a c = if cond = 0 then a == c else if cond = 1 then a != c else if cond = 2 then a.slt c else if cond = 3 then !a.slt c
      else if cond = 4 then a.ult c else !a.ult c := by
  have notSlt : decide (c.toInt ≤ a.toInt) = !a.slt c := by simp [BitVec.slt, ← decide_not]
  have notUlt : decide (c.toNat ≤ a.toNat) = !a.ult c := by simp [BitVec.ult, ← decide_not]
  match cond, h with
  | 0, _ | 1, _ | 2, _ | 4, _ => rfl
  | 3, _ => exact notSlt
  | 5, _ => exact notUlt

/-- PLOG's index into its truth table is 2 Pa + Pb (R140). -/
theorem plogBit_eq (tt : Nat) (p q : Bool) : plogBit tt p q = tt.testBit (2 * p.toNat + q.toNat) := by
  cases p <;> cases q <;> rfl

variable {s : State} {e : EngId} {b : KBits}

/-- A comparison that starts has one of the six conditions. -/
theorem Starts.condition {w : Allow} {z : Bool} (h : Starts w s e b (z && decide (b.f 46 44 ≤ 5))) : b.f 46 44 ≤ 5 := by
  obtain ⟨_, _, _, _, hf, _⟩ := h
  exact of_decide_eq_true (Bool.and_eq_true_iff.mp hf).2

/-- A comparison that starts writes its condition to its predicate. -/
theorem done_compareTo {z : KBits → Bool} (operand : Engine → KBits → Word) (h : Starts anyEngine s e b (z b && decide (b.f 46 44 ≤ 5))) :
    done (runInstr anyEngine (fun b => z b && decide (b.f 46 44 ≤ 5)) (compareTo operand) e b s) =
      goesOn s e ((s.eng e).wp (b.f 49 47) (cmpCond (b.f 46 44) ((s.eng e).rs (b.f 43 39)) (operand (s.eng e) b))) :=
  done_runInstr_goesOn (ok := fun b => z b && decide (b.f 46 44 ≤ 5)) h rfl

/-- A comparison of condition 6 or 7 is illegal. -/
theorem done_compareTo_illegal {z : KBits → Bool} (operand : Engine → KBits → Word) (hr : s.ready e = true)
    (ht : takes e b.engine = true) (hc : 6 ≤ b.f 46 44) :
    done (runInstr anyEngine (fun b => z b && decide (b.f 46 44 ≤ 5)) (compareTo operand) e b s) =
      .next (s.instrFault e codeIllegal).flush := by
  have hf : decide (b.f 46 44 ≤ 5) = false := decide_eq_false (by omega)
  rw [runInstr_illegal s hr ht (by simp [hf])]
  rfl

/-- NOP only goes on. -/
theorem exec_nop (h : Starts anyEngine s e b (b.z 49 0)) : exec (.nop e 0 b) s = goesOn s e (s.eng e) :=
  done_runInstr_goesOn (ok := fun b => (0 : BitVec 8) == 0 && b.z 49 0) h (State.retire_setEng_of_complete s e rfl).symm

/-- Settles O4: the predicate instructions write one register and go on, and going on follows the cases of the loop's end. -/
theorem predicatesAndGoingOn : Obligations.PredicatesAndGoingOn := by
  refine ⟨fun e b s => ?instructions, fun e s => ?goingOn⟩
  case instructions =>
    intro x holds A
    refine ⟨fun h => ?cmp, fun h => ?cmpi, fun _ hr ht hc => ?illegal, fun h => ?plog, fun h => ?getn, exec_nop⟩
    case cmp => exact (done_compareTo (z := fun b => b.z 33 0) _ h).trans (by rw [cmpCond_eq _ _ h.condition])
    case cmpi => exact (done_compareTo (z := fun b => b.z 38 32) _ h).trans (by rw [cmpCond_eq _ _ h.condition])
    case illegal =>
      intro i hi
      simp only [List.mem_cons, List.not_mem_nil, or_false] at hi
      rcases hi with rfl | rfl
      · exact done_compareTo_illegal (z := fun b => b.z 33 0) _ hr ht hc
      · exact done_compareTo_illegal (z := fun b => b.z 38 32) _ hr ht hc
    case plog =>
      rw [← plogBit_eq]
      exact done_runInstr_goesOn (ok := fun b => b.z 36 0) h rfl
    case getn => exact done_runInstr_goesOn (ok := fun b => b.z 42 0) h rfl
  case goingOn =>
    intro x settled
    refine ⟨fun h hp => ?next, fun h hp => ?past, fun l r hl h hc hf => ?round, fun l r hl h hc => ?lastRound⟩
    case next => exact State.retire_of_le s e (Engine.complete_no_end h) (Nat.succ_le_of_lt hp)
    case past =>
      have hy : x.complete x.pc = settled { x with pc := 8192 } := by rw [Engine.complete_no_end h, hp]; rfl
      exact State.retire_of_lt s e hy (Nat.lt_succ_self 8191)
    case round => exact State.retire_of_le s e (Engine.complete_round hl h hc) hf
    case lastRound => exact (State.retire_setEng_of_complete s e (Engine.complete_last_round hl h hc)).symm

end Sys2Proof.Machine
end

section
/-! Fields of registers: what a field reads after a field of its word is replaced, and which registers a write leaves (R5). -/

namespace Sys2Proof.Machine

/-! ### Fields of words -/

/-- A field lies within a word. -/
abbrev RegField.InWord (f : RegField) : Prop := f.lo ≤ f.hi ∧ f.hi < 32

theorem RegField.get_lt (f : RegField) (v : Word) : f.get v < 2 ^ (f.hi - f.lo + 1) := Nat.mod_lt _ (Nat.two_pow_pos _)

theorem RegField.testBit_get (f : RegField) (v : Word) (k : Nat) :
    (f.get v).testBit k = (decide (k < f.hi - f.lo + 1) && v.getLsbD (f.lo + k)) := by
  rw [RegField.get, Nat.testBit_mod_two_pow, Nat.testBit_shiftRight, BitVec.testBit_toNat]

/-- A replaced field changes the word's bits from `lo` to `hi`, and no other. -/
theorem RegField.getLsbD_ins {f : RegField} (hf : f.InWord) (v : Word) (x : Nat) {k : Nat} (hk : k < 32) :
    (f.ins v x).getLsbD k = if f.lo ≤ k ∧ k ≤ f.hi then x.testBit (k - f.lo) else v.getLsbD k := by
  have mask : (BitVec.ofNat 32 (maskOf (f.hi - f.lo + 1)) <<< f.lo).getLsbD k = decide (f.lo ≤ k ∧ k ≤ f.hi) := by
    simp only [maskOf, BitVec.getLsbD_shiftLeft, BitVec.getLsbD_ofNat, Nat.testBit_two_pow_sub_one, hk, decide_true, Bool.true_and]
    by_cases h : f.lo ≤ k
    · have : k - f.lo < 32 ∧ (k - f.lo < f.hi - f.lo + 1 ↔ k ≤ f.hi) := by omega
      simp [h, this]
    · simp [h, Nat.lt_of_not_le h]
  simp only [RegField.ins, BitVec.getLsbD_or, BitVec.getLsbD_and, BitVec.getLsbD_not, mask, hk, decide_true, Bool.true_and]
  split
  case isTrue h =>
    have : ¬ k < f.lo ∧ k - f.lo < 32 := by omega
    simp [h, this, hk, BitVec.getLsbD_ofNat, - BitVec.getLsbD_eq_getElem]
  case isFalse h => simp [h]

/-- A replaced field reads as the value, cut to its width. -/
theorem RegField.get_ins {f : RegField} (hf : f.InWord) (v : Word) (x : Nat) : f.get (f.ins v x) = x % 2 ^ (f.hi - f.lo + 1) := by
  refine Nat.eq_of_testBit_eq fun k => ?_
  rw [RegField.testBit_get, Nat.testBit_mod_two_pow]
  by_cases h : k < f.hi - f.lo + 1
  · have inside : f.lo ≤ f.lo + k ∧ f.lo + k ≤ f.hi := by omega
    rw [RegField.getLsbD_ins hf v x (by omega), if_pos inside, Nat.add_sub_cancel_left]
  · simp [h]

/-- A field reads as before where one beside it is replaced. -/
theorem RegField.get_ins_beside {f g : RegField} (hf : f.InWord) (hg : g.InWord) (h : f.hi < g.lo ∨ g.hi < f.lo) (v : Word) (x : Nat) :
    g.get (f.ins v x) = g.get v := by
  refine Nat.eq_of_testBit_eq fun k => ?_
  rw [RegField.testBit_get, RegField.testBit_get]
  by_cases hk : k < g.hi - g.lo + 1
  · have outside : ¬ (f.lo ≤ g.lo + k ∧ g.lo + k ≤ f.hi) := by omega
    rw [RegField.getLsbD_ins hf v x (by omega), if_neg outside]
  · simp [hk]

/-! ### Fields of the state's registers -/

variable (s : State)

theorem State.fld_lt (f : RegField) (i j : Nat) : s.fld f i j < 2 ^ (f.hi - f.lo + 1) := f.get_lt _

theorem State.fld_setFld {f : RegField} (hf : f.InWord) (x i j : Nat) : (s.setFld f x i j).fld f i j = x % 2 ^ (f.hi - f.lo + 1) := by
  rw [State.fld, State.setFld, State.rd_wr_same, RegField.get_ins hf]

theorem State.fld_setFld_beside {f g : RegField} (hf : f.InWord) (hg : g.InWord) (hr : g.reg = f.reg) (h : f.hi < g.lo ∨ g.hi < f.lo)
    (x i j : Nat) : (s.setFld f x i j).fld g i j = s.fld g i j := by
  rw [State.fld, State.setFld, hr, State.rd_wr_same, RegField.get_ins_beside hf hg h, State.fld, hr]

/-- A bit that is set reads as set. -/
theorem State.bit_setBit {f : RegField} (hf : f.InWord) {b : Nat} (hb : b < f.hi - f.lo + 1) (i j : Nat) :
    (s.setBit f b i j).bit f i j = true := by
  have isSet : ((s.fld f i j ||| 2 ^ b) % 2 ^ (f.hi - f.lo + 1)).testBit b = true := by
    simp [Nat.testBit_mod_two_pow, hb]
  rw [State.bit, State.setBit, State.fld_setFld s hf, bne_iff_ne]
  intro h0
  rw [h0, Nat.zero_testBit] at isSet
  exact absurd isSet Bool.false_ne_true

/-! ### Which registers a write leaves -/

variable {s} {t : State} {l : List (RegId × Nat × Nat)}

theorem RegsBut.refl (s : State) (l : List (RegId × Nat × Nat)) : RegsBut s s l := fun _ _ _ _ _ _ => rfl

/-- One more listed register may be written. -/
theorem RegsBut.wr (h : RegsBut s t l) {r : RegId} {i j : Nat} (v : Word) (hm : (r, i, j) ∈ l) (hi : i < 256) (hj : j < 32) :
    RegsBut s (t.wr r v i j) l := by
  intro q k m hk hm' hq
  have other : regKey q k m ≠ regKey r i j := fun hkey => by
    obtain ⟨rfl, rfl, rfl⟩ := regKey_inj hk hm' hi hj hkey
    exact hq hm
  rw [State.rd_wr_other t v other, h q k m hk hm' hq]

theorem RegsBut.setFld (h : RegsBut s t l) {f : RegField} {i j : Nat} (x : Nat) (hm : (f.reg, i, j) ∈ l) (hi : i < 256) (hj : j < 32) :
    RegsBut s (t.setFld f x i j) l := h.wr _ hm hi hj

theorem RegsBut.setBit (h : RegsBut s t l) {f : RegField} {i j : Nat} (b : Nat) (hm : (f.reg, i, j) ∈ l) (hi : i < 256) (hj : j < 32) :
    RegsBut s (t.setBit f b i j) l := h.setFld _ hm hi hj

/-- A field of a register that is not listed reads as before. -/
theorem RegsBut.fld (h : RegsBut s t l) {f : RegField} {i j : Nat} (hi : i < 256) (hj : j < 32) (hm : (f.reg, i, j) ∉ l) :
    t.fld f i j = s.fld f i j := by
  rw [State.fld, State.fld, h _ _ _ hi hj hm]

/-! ### Commands that raise no fault -/

theorem done_of_quiet (h : Quiet s) : done s = .next s := by
  rw [done, State.flush_of_quiet s h]

/-- A command whose meaning ends in a quiet state completes there. -/
theorem Completes.of_done {i : Instr} {P : State → Prop} (he : exec i s = done t) (hq : Quiet t) (hp : P t) : Completes i s P :=
  ⟨t, he.trans (done_of_quiet hq), hp⟩

end Sys2Proof.Machine
end

section
/-! Windows (R379, R380, R382) and the checks of a request (R381). -/

namespace Sys2Proof.Machine

variable {s : State} {v : Word} {w : Nat}

/-- The generation of a window stands beside its state. -/
theorem State.gen_setFld_state (s : State) (x w : Nat) :
    (s.setFld F.WIN_STATUS_STATE x w).fld F.WIN_STATUS_GEN w = s.fld F.WIN_STATUS_GEN w :=
  State.fld_setFld_beside (f := F.WIN_STATUS_STATE) (g := F.WIN_STATUS_GEN) s (by decide) (by decide) rfl (by decide) x w 0

theorem State.state_setFld_state (s : State) (x w : Nat) :
    (s.setFld F.WIN_STATUS_STATE x w).fld F.WIN_STATUS_STATE w = x % 4 :=
  State.fld_setFld s (by decide) x w 0

/-! ### OPEN (R380) -/

/-- A window that is CLOSED, over a range that meets R379. -/
abbrev State.MayOpen (s : State) (w : Nat) : Prop :=
  s.fld F.WIN_STATUS_STATE w = 0 ∧ s.winSize w ≠ 0 ∧ s.inMemory (s.winBase w) (s.winSize w) = true

theorem State.openWindow_of_not_mayOpen (h : ¬ s.MayOpen w) : s.openWindow w = s.setBit F.PLT_EVT_WIN_REJECT := if_neg h

theorem State.openWindow_of_mayOpen (h : s.MayOpen w) : s.openWindow w =
    (((s.setFld F.WIN_STATUS_STATE 1 w).wr .WIN_CLOSED_CNT 0 w).wr .WIN_DENIED_CNT 0 w).wr .WIN_OVERRUN_CNT 0 w := if_pos h

theorem State.openWindow_quiet (hq : Quiet s) : Quiet (s.openWindow w) := by
  unfold State.openWindow
  split <;> exact hq

theorem State.openWindow_mem : (s.openWindow w).mem = s.mem := by
  unfold State.openWindow
  split <;> rfl

/-- OPEN changes the window's state and clears its counters. -/
theorem State.openWindow_regsBut (h : s.MayOpen w) (hw : w < 256) :
    RegsBut s (s.openWindow w) [(.WIN_STATUS, w, 0), (.WIN_CLOSED_CNT, w, 0), (.WIN_DENIED_CNT, w, 0), (.WIN_OVERRUN_CNT, w, 0)] := by
  rw [State.openWindow_of_mayOpen h]
  exact ((((RegsBut.refl _ _).setFld _ (by simp [F.WIN_STATUS_STATE]) hw (by decide)).wr _ (by simp) hw (by decide)).wr _ (by simp) hw
    (by decide)).wr _ (by simp) hw (by decide)

/-- The counters that OPEN clears are no part of the window's status. -/
theorem State.openWindow_fld_status (h : s.MayOpen w) (hw : w < 256) {f : RegField} (hf : f.reg = .WIN_STATUS) :
    (s.openWindow w).fld f w = (s.setFld F.WIN_STATUS_STATE 1 w).fld f w := by
  rw [State.openWindow_of_mayOpen h]
  exact RegsBut.fld (l := [(.WIN_CLOSED_CNT, w, 0), (.WIN_DENIED_CNT, w, 0), (.WIN_OVERRUN_CNT, w, 0)])
    ((((RegsBut.refl _ _).wr _ (by simp) hw (by decide)).wr _ (by simp) hw (by decide)).wr _ (by simp) hw (by decide)) hw (by decide)
    (by simp [hf])

theorem State.openWindow_state (h : s.MayOpen w) (hw : w < 256) : (s.openWindow w).fld F.WIN_STATUS_STATE w = 1 := by
  rw [State.openWindow_fld_status h hw rfl, State.state_setFld_state]

theorem State.openWindow_gen (h : s.MayOpen w) (hw : w < 256) :
    (s.openWindow w).fld F.WIN_STATUS_GEN w = s.fld F.WIN_STATUS_GEN w := by
  rw [State.openWindow_fld_status h hw rfl, State.gen_setFld_state]

/-! ### CLOSE and its end (R382) -/

theorem State.closeWindow_of_open (h : s.fld F.WIN_STATUS_STATE w = 1) : s.closeWindow w = s.setFld F.WIN_STATUS_STATE 2 w := if_pos h

theorem State.closeWindow_of_not_open (h : s.fld F.WIN_STATUS_STATE w ≠ 1) : s.closeWindow w = s := if_neg h

/-- A window whose accepted requests have completed: CLOSED, at the next generation, and its event set. -/
def State.closedWindow (s : State) (w : Nat) : State :=
  ((s.setFld F.WIN_STATUS_GEN (s.fld F.WIN_STATUS_GEN w + 1) w).setFld F.WIN_STATUS_STATE 0 w).setBit F.PLT_EVT_WIN_CLOSED_DONE

theorem State.closedWindow_regsBut (hw : w < 256) : RegsBut s (s.closedWindow w) [(.WIN_STATUS, w, 0), (.PLT_EVT, 0, 0)] :=
  (((RegsBut.refl _ _).setFld _ (by simp [F.WIN_STATUS_GEN]) hw (by decide)).setFld _ (by simp [F.WIN_STATUS_STATE]) hw
    (by decide)).setBit _ (by simp [F.PLT_EVT_WIN_CLOSED_DONE]) (by decide) (by decide)

/-- The event of a close is no part of the window's status. -/
theorem State.closedWindow_fld_status (hw : w < 256) {f : RegField} (hf : f.reg = .WIN_STATUS) : (s.closedWindow w).fld f w =
    ((s.setFld F.WIN_STATUS_GEN (s.fld F.WIN_STATUS_GEN w + 1) w).setFld F.WIN_STATUS_STATE 0 w).fld f w :=
  RegsBut.fld (l := [(.PLT_EVT, 0, 0)]) ((RegsBut.refl _ _).setBit _ (by simp [F.PLT_EVT_WIN_CLOSED_DONE]) (by decide) (by decide))
    hw (by decide) (by simp [hf])

theorem State.closedWindow_state (hw : w < 256) : (s.closedWindow w).fld F.WIN_STATUS_STATE w = 0 := by
  rw [State.closedWindow_fld_status hw rfl, State.state_setFld_state]

theorem State.closedWindow_gen (hw : w < 256) : (s.closedWindow w).fld F.WIN_STATUS_GEN w = (s.fld F.WIN_STATUS_GEN w + 1) % 65536 := by
  rw [State.closedWindow_fld_status hw rfl, State.gen_setFld_state, State.fld_setFld _ (by decide)]
  rfl

theorem State.closedWindow_event : (s.closedWindow w).bit F.PLT_EVT_WIN_CLOSED_DONE = true := State.bit_setBit _ (by decide) (by decide) 0 0

theorem execWindowCloseDone_of_closing {w : Fin 256} (h : s.fld F.WIN_STATUS_STATE w = 2) :
    execWindowCloseDone w s = done (s.closedWindow w) := congrArg done (if_pos h)

theorem execWindowCloseDone_of_not_closing {w : Fin 256} (h : s.fld F.WIN_STATUS_STATE w ≠ 2) : execWindowCloseDone w s = done s :=
  congrArg done (if_neg h)

/-! ### A write of WIN_CTRL -/

theorem State.writeWinCtrl_open (h0 : v.getLsbD 0 = true) (h1 : v.getLsbD 1 = false) :
    s.writeWinCtrl v = s.openWindow (s.fld F.WIN_SEL_WIN) := by
  simp only [State.writeWinCtrl, h0, h1, if_true, Bool.false_eq_true, if_false]

theorem State.writeWinCtrl_close (h0 : v.getLsbD 0 = false) (h1 : v.getLsbD 1 = true) :
    s.writeWinCtrl v = s.closeWindow (s.fld F.WIN_SEL_WIN) := by
  simp only [State.writeWinCtrl, h0, h1, if_true, Bool.false_eq_true, if_false]

theorem exec_windowOpen_open (h0 : v.getLsbD 0 = true) (h1 : v.getLsbD 1 = false) :
    exec (.windowOpen v) s = done (s.openWindow (s.fld F.WIN_SEL_WIN)) := congrArg done (State.writeWinCtrl_open h0 h1)

theorem exec_windowClose_close (h0 : v.getLsbD 0 = false) (h1 : v.getLsbD 1 = true) :
    exec (.windowClose v) s = done (s.closeWindow (s.fld F.WIN_SEL_WIN)) := congrArg done (State.writeWinCtrl_close h0 h1)

/-! ### The checks of a request (R381) -/

/-- The first check: the window is OPEN, and at the generation the frame names. -/
abbrev State.WindowCurrent (s : State) (f : Frame) : Prop :=
  s.fld F.WIN_STATUS_STATE f.win.toNat = 1 ∧ s.fld F.WIN_STATUS_GEN f.win.toNat = f.gen.toNat

/-- The second check: the frame's origin is a peer of the window, which has the right. -/
abbrev State.WindowAllows (s : State) (f : Frame) (right : Nat) : Prop :=
  (f.hostSrc = true ∨ f.src.toNat ≤ 11) ∧ (s.fld F.WIN_PEERS_PEERS f.win.toNat).testBit (originBit f) = true ∧
    (s.fld F.WIN_PEERS_RIGHTS f.win.toNat).testBit right = true

/-- The checks of a request stop at the first that fails. -/
theorem State.windowStatus_eq (s : State) (f : Frame) (right n : Nat) : s.windowStatus f right n =
    if ¬ s.WindowCurrent f then 0x06 else if ¬ s.WindowAllows f right then 0x07
    else if s.winSize f.win.toNat < f.offset.toNat + n then 0x05 else 0 := by
  have origin : (originBit f == 12 && f.hostSrc || decide (f.src.toNat ≤ 11) && !f.hostSrc) =
      decide (f.hostSrc = true ∨ f.src.toNat ≤ 11) := by
    cases h : f.hostSrc <;> simp [originBit, h]
  have notCurrent : (s.fld F.WIN_STATUS_STATE f.win.toNat ≠ 1 ∨ s.fld F.WIN_STATUS_GEN f.win.toNat ≠ f.gen.toNat) ↔
      ¬ s.WindowCurrent f := Decidable.not_and_iff_not_or_not.symm
  have notAllowed : (!decide (f.hostSrc = true ∨ f.src.toNat ≤ 11) || !(s.fld F.WIN_PEERS_PEERS f.win.toNat).testBit (originBit f) ||
      !(s.fld F.WIN_PEERS_RIGHTS f.win.toNat).testBit right) = true ↔ ¬ s.WindowAllows f right := by
    simp only [State.WindowAllows, Bool.or_eq_true, Bool.not_eq_true', ← Bool.not_eq_true, decide_eq_true_eq,
      Decidable.not_and_iff_not_or_not, or_assoc]
  rw [State.windowStatus, origin]
  exact ite_congr (propext notCurrent) (fun _ => rfl) fun _ => ite_congr (propext notAllowed) (fun _ => rfl) fun _ => rfl

section
variable {f : Frame} {right n : Nat}

theorem State.windowStatus_of_not_current (h : ¬ s.WindowCurrent f) : s.windowStatus f right n = 0x06 := by
  rw [State.windowStatus_eq, if_pos h]

theorem State.windowStatus_of_not_allows (hc : s.WindowCurrent f) (h : ¬ s.WindowAllows f right) : s.windowStatus f right n = 0x07 := by
  rw [State.windowStatus_eq, if_neg (not_not_intro hc), if_pos h]

theorem State.windowStatus_of_over (hc : s.WindowCurrent f) (ha : s.WindowAllows f right)
    (h : s.winSize f.win.toNat < f.offset.toNat + n) : s.windowStatus f right n = 0x05 := by
  rw [State.windowStatus_eq, if_neg (not_not_intro hc), if_neg (not_not_intro ha), if_pos h]

theorem State.windowStatus_of_within (hc : s.WindowCurrent f) (ha : s.WindowAllows f right)
    (h : f.offset.toNat + n ≤ s.winSize f.win.toNat) : s.windowStatus f right n = 0 := by
  rw [State.windowStatus_eq, if_neg (not_not_intro hc), if_neg (not_not_intro ha), if_neg (Nat.not_lt.mpr h)]

end

/-- Settles O43: what OPEN, CLOSE and the end of a close write, and the checks of a request in their order. -/
theorem windows : Obligations.Windows := by
  intro v w f right n s hq x st y current origin allowed
  have hx : x < 256 := s.fld_lt F.WIN_SEL_WIN 0 0
  refine ⟨fun h0 h1 => ⟨fun hst hsize hmem => ?opens, fun hno => ?rejects⟩,
    fun h0 h1 => ⟨fun hst => ?closes, fun hst => ?notOpen⟩, fun hst => ?closeDone, fun hst => ?notClosing,
    State.windowStatus_of_not_current, State.windowStatus_of_not_allows, State.windowStatus_of_over,
    State.windowStatus_of_within⟩
  case opens =>
    have may : s.MayOpen x := ⟨hst, hsize, hmem⟩
    exact .of_done (exec_windowOpen_open h0 h1) (State.openWindow_quiet hq)
      ⟨State.openWindow_state may hx, State.openWindow_gen may hx, State.openWindow_regsBut may hx, State.openWindow_mem⟩
  case rejects =>
    have mayNot : ¬ s.MayOpen x := by
      rintro ⟨hst, hsize, hmem⟩
      rcases hno with h | h | h
      · exact h hst
      · exact hsize h
      · exact Bool.false_ne_true (h.symm.trans hmem)
    rw [exec_windowOpen_open h0 h1, State.openWindow_of_not_mayOpen mayNot]
    exact done_of_quiet hq
  case closes =>
    exact .of_done ((exec_windowClose_close h0 h1).trans (congrArg done (State.closeWindow_of_open hst))) hq
      ⟨State.state_setFld_state s 2 x, State.gen_setFld_state s 2 x,
        (RegsBut.refl _ _).setFld _ (by simp [x, F.WIN_STATUS_STATE]) hx (by decide), rfl⟩
  case notOpen =>
    rw [exec_windowClose_close h0 h1, State.closeWindow_of_not_open hst]
    exact done_of_quiet hq
  case closeDone =>
    exact .of_done (execWindowCloseDone_of_closing hst) hq ⟨State.closedWindow_state w.isLt, State.closedWindow_gen w.isLt,
      State.closedWindow_event, State.closedWindow_regsBut w.isLt, rfl⟩
  case notClosing => exact (execWindowCloseDone_of_not_closing hst).trans (done_of_quiet hq)

end Sys2Proof.Machine
end
